-- ==== Sys2Proof/Word.lean ====
section
/-! DEFINITION. The plain words of the block: bytes, codes of at most 127, line levels (`00_scope.md` rules R5, R7). -/

namespace Sys2Proof

/-- A byte: an unsigned number from 0 to 255 (rule R5). -/
abbrev Byte := BitVec 8

/-- A byte that is at most 127, held in seven bits (the constraint of rule R3's parameters). -/
abbrev Code7 := BitVec 7

/-- A line level, 0 or 1 (rule R7): `false` is 0, `true` is 1. -/
abbrev Level := Bool

end Sys2Proof
end

