-- ==== Sys2Proof/Config.lean ====
section
/-! DEFINITION. The constants of rule R4, the parameters of rule R3 and the free values of rules R43, R44 and R121. -/

namespace Sys2Proof

/-! The fixed constants of `00_scope.md` rule R4. -/

/-- NROWS, the physical rows (rule R4). -/
abbrev Config.nRows : Nat := 7
/-- NSLOTS, the slots of the text buffer (rules R4, R36). -/
abbrev Config.nSlots : Nat := 46
/-- NVIS, the visible slots (rule R4). -/
abbrev Config.nVisible : Nat := 45
/-- LINE, the slots of one text line (rule R4). -/
abbrev Config.lineLength : Nat := 15
/-- LOOKAHEAD, the slot index 45 (rules R4, R37). -/
abbrev Config.lookahead : Nat := 45
/-- The first slot of the middle line (rule R37). -/
abbrev Config.middleLine : Nat := 15
/-- The first slot of the bottom line (rule R37). -/
abbrev Config.bottomLine : Nat := 30
/-- The space byte, 0x20 (`00_scope.md` glossary; `93_implementation_defined.md` G1). -/
abbrev Config.space : Byte := 0x20

/-- A text of at most `n` codes: the first `length` of `letters`. -/
structure Label (n : Nat) where
  length : Fin (n + 1)
  letters : Vector Code7 n
  deriving DecidableEq, Repr, Inhabited

/-- The codes of a label. -/
def Label.codes {n : Nat} (l : Label n) : List Code7 := l.letters.toList.take l.length

/-- What a wall clock shows at a second: the day with its month, year and weekday, and the time of the day. Which day that is
takes a calendar and a time zone, and neither is in the source (rule R121; `notes/assumptions/19.md`). A clock may show a second 60. -/
structure ClockReading where
  day : Fin 100
  month : Fin 100
  year : Nat
  weekday : Fin 7
  hour : Fin 24
  minute : Fin 60
  second : Fin 61
  deriving DecidableEq, Repr, Inhabited

/-- How a date text is written: what rule R121 leaves open of it once the reading is known (`notes/assumptions/15.md`). -/
structure DateLayout where
  /-- The codes of the ten decimal digits; the spec gives none. -/
  digits : Vector Code7 10
  /-- The code that separates hour, minute and second in HH:MM:SS; the spec gives none. -/
  colon : Code7
  /-- Between day and month. -/
  daySeparator : Label 15
  /-- Between month and year. -/
  monthSeparator : Label 15
  /-- What stands before a day below 10, if anything does: a zero, or another code. -/
  padDay : Option Code7
  /-- What stands before a month below 10, if anything does. -/
  padMonth : Option Code7
  /-- The number of year digits less one, the low ones; `none` is as many as the year has. -/
  yearDigitsLessOne : Option (Fin 11)
  /-- The names of the seven weekdays: a first code and up to 14 more. -/
  weekdays : Vector (Code7 × Label 14) 7
  /-- The spaces before each of the three fields. -/
  spacesBeforeDate : Fin 16
  spacesBeforeTime : Fin 16
  spacesBeforeWeekday : Fin 16
  deriving DecidableEq, Repr, Inhabited

/-- The implementation parameters of `00_scope.md` rule R3, as plain data that a state carries along and no step changes
(`notes/assumptions/3.md`). The constraints of rule R3 hold by the types: a `Code7` is at most 127, and RAND_MAX and
T_SETTLE are stored less one, so that they are at least 1. -/
structure Params where
  /-- FONT, flat: glyph `c`, row `r` stands at `7 * c + r` (rules R22, R39, R81). -/
  font : Vector Byte 896
  /-- LANDSCAPE_SNOW (rule R136). -/
  landscapeSnow : Vector Code7 15
  /-- LANDSCAPE_FW (rule R138). -/
  landscapeFw : Vector Code7 15
  /-- SNOW_CHAR (rule R136). -/
  snowChar : Code7
  /-- TRACER_CHAR (rule R138). -/
  tracerChar : Code7
  /-- BURST_CHAR (rule R138). -/
  burstChar : Code7
  /-- RAND_MAX less one (rules R137, R139). -/
  randMaxLessOne : Nat
  /-- T_SETTLE less one, in a unit of time that no rule fixes (rules R73, R162). -/
  tSettleLessOne : Nat
  /-- DATE_TEXT at the seconds that are given outright; elsewhere it is `Config.clockReading` and `Config.dateLayout`. -/
  dateTable : List (Int × ClockReading × DateLayout)
  deriving DecidableEq, Repr, Inhabited

/-- An instant of the wall clock: the second it falls in, and the part below the second (rules R43, R121). The seconds are
numbered in order, from one that nothing depends on. -/
structure Instant where
  second : Int
  fraction : Nat
  deriving DecidableEq, Repr, Inhabited

/-- The parameters of an implementation: not known (rule R3: none of them has a value in the source). -/
opaque Config.params : Params

/-- What the wall clock shows, as an uninterpreted function of the second (rules R3, R121). -/
opaque Config.clockReading : Int → ClockReading

/-- How the date text is written, as an uninterpreted function of the second (rules R3, R121). -/
opaque Config.dateLayout : Int → DateLayout

/-- The `n`-th random draw, free in `0 .. max` (rules R44, R137): no law, no relation between draws. -/
opaque Config.freeDraw : (max : Nat) → (n : Nat) → Fin (max + 1)

/-- The `n`-th answer of the CLOCK port, a free instant (rule R43). -/
opaque Config.freeInstant : Nat → Instant

end Sys2Proof
end

