-- ==== Sys2Proof/Syntax.lean ====
section
/-! DEFINITION. The names of `30_encoding.md` and `Instr`, one constructor for every row of `spec/opcode_table.json`. -/

namespace Sys2Proof

/-- The six output lines, in the order of their identifiers (rule R54). -/
inductive Line where
  | sclk | sdata | stb | rowa | rowb | rowc
  deriving DecidableEq, Repr

/-- One line event: an output line is driven to a level (rules R8, R55, R73). -/
structure LineEvent where
  line : Line
  level : Level
  deriving DecidableEq, Repr

/-- The thirteen phases of the sequencer (rules R15, R62). -/
inductive Phase where
  | rowA | rowB | rowC | data | clkH | clkL | stbH | stbL | post | tick | rdL | rdV | halt
  deriving DecidableEq, Repr

/-- The seven modes of the buffer controller (rules R28, R60). -/
inductive Mode where
  | static | date | snow | fw | left | up | down
  deriving DecidableEq, Repr

/-- The formats that hold a row of the opcode table (rule R53). -/
inductive Format where
  | lineEvent | inputSymbol | cfg | phase
  deriving DecidableEq, Repr

/-- The six classes of an input symbol, with the byte where the class keeps one (rule R57). -/
inductive SymClass where
  | eof | lf | cr | ff
  | high (byte : Byte)
  | normal (byte : Byte)
  deriving DecidableEq, Repr

/-- The rows of `spec/opcode_table.json`. A constructor's arguments are the bits its row leaves free:
the level of a LINE_EVENT, the byte bits of a symbol, the bits of a CFG word that the row and the rows before it
do not settle (rule R61 tries its rows in order). -/
inductive Instr where
  -- LINE_EVENT, rules R74 to R79
  | setSclk (v : Level)
  | setSdata (v : Level)
  | setStb (v : Level)
  | setRowa (v : Level)
  | setRowb (v : Level)
  | setRowc (v : Level)
  -- INPUT_SYMBOL, rules R110 to R115
  | symEof (ignored : BitVec 8)
  | symLf
  | symCr
  | symFf
  | symHigh (low : BitVec 7)
  | symNormal (code : BitVec 7)
  -- the mode decode of a CFG word, rule R61
  | modeRefuseBadScroll (exitOnEof dateOverlay staticEn : Bool) (effect : BitVec 2) (verbose : Bool)
  | modeRefuseBadEffect (exitOnEof dateOverlay staticEn : Bool) (scroll : BitVec 2) (verbose : Bool)
  | modeRefuseStaticDate (exitOnEof : Bool) (scroll effect : BitVec 2) (verbose : Bool)
  | modeRefuseStaticSnow (exitOnEof : Bool) (scroll : BitVec 2) (verbose : Bool)
  | modeRefuseStaticFw (exitOnEof : Bool) (scroll : BitVec 2) (verbose : Bool)
  | modeRefuseDateSnow (exitOnEof : Bool) (scroll : BitVec 2) (verbose : Bool)
  | modeRefuseDateFw (exitOnEof : Bool) (scroll : BitVec 2) (verbose : Bool)
  | modeStatic (exitOnEof : Bool) (scroll : BitVec 2) (verbose : Bool)
  | modeDate (exitOnEof : Bool) (scroll : BitVec 2) (verbose : Bool)
  | modeSnow (exitOnEof : Bool) (scroll : BitVec 2) (verbose : Bool)
  | modeFw (exitOnEof : Bool) (scroll : BitVec 2) (verbose : Bool)
  | modeLeft (exitOnEof verbose : Bool)
  | modeUp (exitOnEof verbose : Bool)
  | modeDown (exitOnEof verbose : Bool)
  -- PHASE, the block's operation codes, rule R62
  | phaseRowA
  | phaseRowB
  | phaseRowC
  | phaseData
  | phaseClkH
  | phaseClkL
  | phaseStbH
  | phaseStbL
  | phasePost
  | phaseTick
  | phaseRdL
  | phaseRdV
  | phaseHalt
  deriving DecidableEq, Repr

end Sys2Proof
end

