-- ==== Sys2Proof/WellFormed.lean ====
section
/-! DEFINITION. Which instructions some word stands for: the arguments that the row's own fields, or a row tried before it, rule out. -/

namespace Sys2Proof

/-- A two-bit option field that is not the reserved value 3 (rules R58, R65). -/
def fieldInRange (x : BitVec 2) : Bool := x != 3

/-- The byte of a NORMAL symbol: none of LF, FF and CR, which are tried first (rules R57, R115). -/
def isNormalCode (x : BitVec 7) : Bool := x != 10 && x != 12 && x != 13

/-- The instruction is what some word decodes to. -/
def WellFormed : Instr → Bool
  | .symNormal x => isNormalCode x
  | .modeRefuseBadEffect _ _ _ scroll _ => fieldInRange scroll
  | .modeRefuseStaticDate _ scroll effect _ => fieldInRange scroll && fieldInRange effect
  | .modeRefuseStaticSnow _ scroll _ => fieldInRange scroll
  | .modeRefuseStaticFw _ scroll _ => fieldInRange scroll
  | .modeRefuseDateSnow _ scroll _ => fieldInRange scroll
  | .modeRefuseDateFw _ scroll _ => fieldInRange scroll
  | .modeStatic _ scroll _ => fieldInRange scroll
  | .modeDate _ scroll _ => fieldInRange scroll
  | .modeSnow _ scroll _ => fieldInRange scroll
  | .modeFw _ scroll _ => fieldInRange scroll
  | .setSclk _ | .setSdata _ | .setStb _ | .setRowa _ | .setRowb _ | .setRowc _ => true
  | .symEof _ | .symLf | .symCr | .symFf | .symHigh _ => true
  | .modeRefuseBadScroll _ _ _ _ _ => true
  | .modeLeft _ _ | .modeUp _ _ | .modeDown _ _ => true
  | .phaseRowA | .phaseRowB | .phaseRowC | .phaseData | .phaseClkH | .phaseClkL | .phaseStbH | .phaseStbL => true
  | .phasePost | .phaseTick | .phaseRdL | .phaseRdV | .phaseHalt => true

end Sys2Proof
end

