-- ==== Sys2Proof/Decode.lean ====
section
/-! DEFINITION. The decoders of `30_encoding.md`, total on every word, and the encoder written from the same tables.
A word is read in a given format (rule R53: a decoder knows a word's length from its format alone), so the four formats are
four decoders; `decode` reads a stored word in a named format. -/

namespace Sys2Proof

/-- Why a word is refused by a decoder (rules R55, R62, R65). -/
inductive DecodeError where
  /-- A LINE_EVENT code 0xC to 0xF "spells no event" (rules R55, R65). -/
  | spellsNoEvent
  /-- A PHASE code 13 to 15, never written (rules R62, R65). -/
  | unusedPhase
  /-- A bit is set above the format's width (rule R53). -/
  | bitsAboveFormat
  /-- The number of bytes is not the format's (rule R53: no format has a variable length). -/
  | wrongLength
  deriving DecidableEq, Repr

/-! ## Codes -/

/-- The identifier of an output line (rule R54). -/
def Line.id : Line → BitVec 3
  | .sclk => 0
  | .sdata => 1
  | .stb => 2
  | .rowa => 3
  | .rowb => 4
  | .rowc => 5

/-- The code of a line event, `2 * id + v` (rule R55). -/
def LineEvent.code (e : LineEvent) : BitVec 4 := e.line.id ++ BitVec.ofBool e.level

/-- The event a LINE_EVENT code spells; 0xC to 0xF spell none (rules R55, R65, R69). -/
def lineEventOfCode (w : BitVec 4) : Except DecodeError LineEvent :=
  match w.extractLsb' 1 3 with
  | 0 => .ok ⟨.sclk, w.getLsbD 0⟩
  | 1 => .ok ⟨.sdata, w.getLsbD 0⟩
  | 2 => .ok ⟨.stb, w.getLsbD 0⟩
  | 3 => .ok ⟨.rowa, w.getLsbD 0⟩
  | 4 => .ok ⟨.rowb, w.getLsbD 0⟩
  | 5 => .ok ⟨.rowc, w.getLsbD 0⟩
  | _ => .error .spellsNoEvent

/-- The code of a phase (rule R62). -/
def Phase.code : Phase → BitVec 4
  | .rowA => 0
  | .rowB => 1
  | .rowC => 2
  | .data => 3
  | .clkH => 4
  | .clkL => 5
  | .stbH => 6
  | .stbL => 7
  | .post => 8
  | .tick => 9
  | .rdL => 10
  | .rdV => 11
  | .halt => 12

/-- The code of a mode (rule R60). -/
def Mode.code : Mode → BitVec 3
  | .static => 0
  | .date => 1
  | .snow => 2
  | .fw => 3
  | .left => 4
  | .up => 5
  | .down => 6

/-- The mode a MODE code stands for; 7 is never written (rules R60, R65). -/
def modeOfCode (w : BitVec 3) : Option Mode :=
  match w with
  | 0 => some .static
  | 1 => some .date
  | 2 => some .snow
  | 3 => some .fw
  | 4 => some .left
  | 5 => some .up
  | 6 => some .down
  | _ => none

/-! ## CFG fields (rules R29, R58) -/

/-- EXIT_ON_EOF, CFG[0]. -/
def cfgExitOnEof (w : BitVec 8) : Bool := w.getLsbD 0
/-- DATE_OVERLAY, CFG[1]. -/
def cfgDateOverlay (w : BitVec 8) : Bool := w.getLsbD 1
/-- STATIC_EN, CFG[2]. -/
def cfgStaticEn (w : BitVec 8) : Bool := w.getLsbD 2
/-- SCROLL_MODE, CFG[4:3]. -/
def cfgScrollMode (w : BitVec 8) : BitVec 2 := w.extractLsb' 3 2
/-- EFFECT_MODE, CFG[6:5]. -/
def cfgEffectMode (w : BitVec 8) : BitVec 2 := w.extractLsb' 5 2
/-- VERBOSE, CFG[7]. -/
def cfgVerbose (w : BitVec 8) : Bool := w.getLsbD 7

/-- The CFG word with the given fields (rules R29, R58). -/
def cfgWord (exitOnEof dateOverlay staticEn : Bool) (scroll effect : BitVec 2) (verbose : Bool) : BitVec 8 :=
  BitVec.ofBool verbose ++ effect ++ scroll ++ BitVec.ofBool staticEn ++ BitVec.ofBool dateOverlay ++ BitVec.ofBool exitOnEof

/-! ## The four decoders -/

/-- LINE_EVENT (rule R55). -/
def decodeLineEvent (w : BitVec 4) : Except DecodeError Instr :=
  match lineEventOfCode w with
  | .ok ⟨.sclk, v⟩ => .ok (.setSclk v)
  | .ok ⟨.sdata, v⟩ => .ok (.setSdata v)
  | .ok ⟨.stb, v⟩ => .ok (.setStb v)
  | .ok ⟨.rowa, v⟩ => .ok (.setRowa v)
  | .ok ⟨.rowb, v⟩ => .ok (.setRowb v)
  | .ok ⟨.rowc, v⟩ => .ok (.setRowc v)
  | .error e => .error e

/-- The class of an input symbol: the rows of rule R57 in order, the first match wins. -/
def classOf (x : BitVec 9) : SymClass :=
  if x &&& 0x100 = 0x100 then .eof
  else if x &&& 0x1FF = 0x00A then .lf
  else if x &&& 0x1FF = 0x00D then .cr
  else if x &&& 0x1FF = 0x00C then .ff
  else if x &&& 0x180 = 0x080 then .high (x.extractLsb' 0 8)
  else .normal (x.extractLsb' 0 8)

/-- INPUT_SYMBOL: the row of a symbol is that of its class (rule R57). -/
def decodeSymbol (x : BitVec 9) : Instr :=
  match classOf x with
  | .eof => .symEof (x.extractLsb' 0 8)
  | .lf => .symLf
  | .cr => .symCr
  | .ff => .symFf
  | .high byte => .symHigh (byte.extractLsb' 0 7)
  | .normal byte => .symNormal (byte.extractLsb' 0 7)

/-- The mode decode of a CFG word: the rows of rule R61 in order, the first match wins. Every word matches some row, so
the last row needs no test. -/
def decodeCfg (w : BitVec 8) : Instr :=
  if w &&& 0x18 = 0x18 then
    .modeRefuseBadScroll (cfgExitOnEof w) (cfgDateOverlay w) (cfgStaticEn w) (cfgEffectMode w) (cfgVerbose w)
  else if w &&& 0x60 = 0x60 then
    .modeRefuseBadEffect (cfgExitOnEof w) (cfgDateOverlay w) (cfgStaticEn w) (cfgScrollMode w) (cfgVerbose w)
  else if w &&& 0x06 = 0x06 then .modeRefuseStaticDate (cfgExitOnEof w) (cfgScrollMode w) (cfgEffectMode w) (cfgVerbose w)
  else if w &&& 0x64 = 0x24 then .modeRefuseStaticSnow (cfgExitOnEof w) (cfgScrollMode w) (cfgVerbose w)
  else if w &&& 0x64 = 0x44 then .modeRefuseStaticFw (cfgExitOnEof w) (cfgScrollMode w) (cfgVerbose w)
  else if w &&& 0x62 = 0x22 then .modeRefuseDateSnow (cfgExitOnEof w) (cfgScrollMode w) (cfgVerbose w)
  else if w &&& 0x62 = 0x42 then .modeRefuseDateFw (cfgExitOnEof w) (cfgScrollMode w) (cfgVerbose w)
  else if w &&& 0x66 = 0x04 then .modeStatic (cfgExitOnEof w) (cfgScrollMode w) (cfgVerbose w)
  else if w &&& 0x66 = 0x02 then .modeDate (cfgExitOnEof w) (cfgScrollMode w) (cfgVerbose w)
  else if w &&& 0x66 = 0x20 then .modeSnow (cfgExitOnEof w) (cfgScrollMode w) (cfgVerbose w)
  else if w &&& 0x66 = 0x40 then .modeFw (cfgExitOnEof w) (cfgScrollMode w) (cfgVerbose w)
  else if w &&& 0x7E = 0x00 then .modeLeft (cfgExitOnEof w) (cfgVerbose w)
  else if w &&& 0x7E = 0x08 then .modeUp (cfgExitOnEof w) (cfgVerbose w)
  else .modeDown (cfgExitOnEof w) (cfgVerbose w)

/-- PHASE (rule R62). -/
def decodePhase (w : BitVec 4) : Except DecodeError Instr :=
  match w with
  | 0 => .ok .phaseRowA
  | 1 => .ok .phaseRowB
  | 2 => .ok .phaseRowC
  | 3 => .ok .phaseData
  | 4 => .ok .phaseClkH
  | 5 => .ok .phaseClkL
  | 6 => .ok .phaseStbH
  | 7 => .ok .phaseStbL
  | 8 => .ok .phasePost
  | 9 => .ok .phaseTick
  | 10 => .ok .phaseRdL
  | 11 => .ok .phaseRdV
  | 12 => .ok .phaseHalt
  | _ => .error .unusedPhase

/-! ## Stored words -/

/-- The width of a format in bits (rule R53). -/
def Format.width : Format → Nat
  | .lineEvent => 4
  | .inputSymbol => 9
  | .cfg => 8
  | .phase => 4

/-- Read a word in a format. The word is given in 16 bits, and a bit above the format's width is refused. -/
def decodeWord (f : Format) (w : BitVec 16) : Except DecodeError Instr :=
  if 2 ^ f.width ≤ w.toNat then .error .bitsAboveFormat
  else
    match f with
    | .lineEvent => decodeLineEvent (w.setWidth 4)
    | .inputSymbol => .ok (decodeSymbol (w.setWidth 9))
    | .cfg => .ok (decodeCfg (w.setWidth 8))
    | .phase => decodePhase (w.setWidth 4)

/-- Read whole bytes in a format, the low byte first. The block has no program memory (rule R52), so the layout in bytes
is the model's (`notes/assumptions/6.md`). -/
def decode (f : Format) (bytes : List Byte) : Except DecodeError Instr :=
  match f, bytes with
  | .inputSymbol, [lo, hi] => decodeWord .inputSymbol (hi ++ lo)
  | .lineEvent, [lo] => decodeWord .lineEvent (lo.setWidth 16)
  | .cfg, [lo] => decodeWord .cfg (lo.setWidth 16)
  | .phase, [lo] => decodeWord .phase (lo.setWidth 16)
  | _, _ => .error .wrongLength

/-- The instruction read from a table word of which only its length and its bits are known. One byte can be a PHASE code, a
LINE_EVENT code or a CFG word: below 16 it is read as a PHASE code, the block's operation code (rules R53, R62), and above
as a CFG word; two bytes are an input symbol (`notes/assumptions/6.md`). -/
def decodeTableWord (nbits w : Nat) : Option Instr :=
  if nbits ≤ 8 then
    if w < 16 then (decode .phase [BitVec.ofNat 8 w]).toOption
    else if w < 256 then (decode .cfg [BitVec.ofNat 8 w]).toOption
    else none
  else if w < 2 ^ 16 then (decode .inputSymbol [BitVec.ofNat 8 w, BitVec.ofNat 8 (w / 256)]).toOption
  else none

/-! ## The encoder -/

/-- The format of an instruction's word. -/
def formatOf : Instr → Format
  | .setSclk _ | .setSdata _ | .setStb _ | .setRowa _ | .setRowb _ | .setRowc _ => .lineEvent
  | .symEof _ | .symLf | .symCr | .symFf | .symHigh _ | .symNormal _ => .inputSymbol
  | .modeRefuseBadScroll _ _ _ _ _ | .modeRefuseBadEffect _ _ _ _ _ | .modeRefuseStaticDate _ _ _ _ => .cfg
  | .modeRefuseStaticSnow _ _ _ | .modeRefuseStaticFw _ _ _ | .modeRefuseDateSnow _ _ _ | .modeRefuseDateFw _ _ _ => .cfg
  | .modeStatic _ _ _ | .modeDate _ _ _ | .modeSnow _ _ _ | .modeFw _ _ _ => .cfg
  | .modeLeft _ _ | .modeUp _ _ | .modeDown _ _ => .cfg
  | .phaseRowA | .phaseRowB | .phaseRowC | .phaseData | .phaseClkH | .phaseClkL | .phaseStbH | .phaseStbL => .phase
  | .phasePost | .phaseTick | .phaseRdL | .phaseRdV | .phaseHalt => .phase

/-- The word of an instruction in its format, in 16 bits (rules R55, R57, R58, R61, R62). -/
def encodeWord : Instr → BitVec 16
  | .setSclk v => (LineEvent.code ⟨.sclk, v⟩).setWidth 16
  | .setSdata v => (LineEvent.code ⟨.sdata, v⟩).setWidth 16
  | .setStb v => (LineEvent.code ⟨.stb, v⟩).setWidth 16
  | .setRowa v => (LineEvent.code ⟨.rowa, v⟩).setWidth 16
  | .setRowb v => (LineEvent.code ⟨.rowb, v⟩).setWidth 16
  | .setRowc v => (LineEvent.code ⟨.rowc, v⟩).setWidth 16
  | .symEof ignored => (1#1 ++ ignored).setWidth 16
  | .symLf => 0x00A
  | .symCr => 0x00D
  | .symFf => 0x00C
  | .symHigh low => (1#1 ++ low).setWidth 16
  | .symNormal x => x.setWidth 16
  | .modeRefuseBadScroll x d s e v => (cfgWord x d s 3 e v).setWidth 16
  | .modeRefuseBadEffect x d s m v => (cfgWord x d s m 3 v).setWidth 16
  | .modeRefuseStaticDate x m e v => (cfgWord x true true m e v).setWidth 16
  | .modeRefuseStaticSnow x m v => (cfgWord x false true m 1 v).setWidth 16
  | .modeRefuseStaticFw x m v => (cfgWord x false true m 2 v).setWidth 16
  | .modeRefuseDateSnow x m v => (cfgWord x true false m 1 v).setWidth 16
  | .modeRefuseDateFw x m v => (cfgWord x true false m 2 v).setWidth 16
  | .modeStatic x m v => (cfgWord x false true m 0 v).setWidth 16
  | .modeDate x m v => (cfgWord x true false m 0 v).setWidth 16
  | .modeSnow x m v => (cfgWord x false false m 1 v).setWidth 16
  | .modeFw x m v => (cfgWord x false false m 2 v).setWidth 16
  | .modeLeft x v => (cfgWord x false false 0 0 v).setWidth 16
  | .modeUp x v => (cfgWord x false false 1 0 v).setWidth 16
  | .modeDown x v => (cfgWord x false false 2 0 v).setWidth 16
  | .phaseRowA => Phase.rowA.code.setWidth 16
  | .phaseRowB => Phase.rowB.code.setWidth 16
  | .phaseRowC => Phase.rowC.code.setWidth 16
  | .phaseData => Phase.data.code.setWidth 16
  | .phaseClkH => Phase.clkH.code.setWidth 16
  | .phaseClkL => Phase.clkL.code.setWidth 16
  | .phaseStbH => Phase.stbH.code.setWidth 16
  | .phaseStbL => Phase.stbL.code.setWidth 16
  | .phasePost => Phase.post.code.setWidth 16
  | .phaseTick => Phase.tick.code.setWidth 16
  | .phaseRdL => Phase.rdL.code.setWidth 16
  | .phaseRdV => Phase.rdV.code.setWidth 16
  | .phaseHalt => Phase.halt.code.setWidth 16

/-- The stored bytes of an instruction's word, the low byte first. -/
def encode (i : Instr) : List Byte :=
  match formatOf i with
  | .inputSymbol => [(encodeWord i).extractLsb' 0 8, (encodeWord i).extractLsb' 8 8]
  | _ => [(encodeWord i).extractLsb' 0 8]

end Sys2Proof
end

