-- ==== Sys2Proof/Machine/State.lean ====
section
/-! DEFINITION. The state of the block (`10_state.md` rule R13), the host's side of its ports, and the reset state (rule R158). -/

namespace Sys2Proof.Machine

/-- LV: the level of each output line; `none` is UNK, not yet driven (rule R14). -/
structure LineLevels where
  sclk : Option Level
  sdata : Option Level
  stb : Option Level
  rowa : Option Level
  rowb : Option Level
  rowc : Option Level
  deriving DecidableEq, Repr

/-- All six lines UNK (rules R14, R158). -/
def LineLevels.unknown : LineLevels :=
  { sclk := none, sdata := none, stb := none, rowa := none, rowb := none, rowc := none }

/-- The text buffer TB as a memory: a list of slots and bytes, slots rising, no entry equal to 0x20, which is what a slot
that is not listed reads as (rules R20, R36; `Memory.wf` in Machine/Ops.lean says the form). -/
abbrev Memory := List Host.Cell

/-- The state. The first group is the tuple of rule R13; the second is the model's own (INVENTORY.md, `## State`). -/
structure State where
  /-- LV, the output lines (rule R14). -/
  lv : LineLevels
  /-- The phase code (rules R15, R62). -/
  phase : BitVec 4
  /-- The physical row (rule R16). -/
  p : BitVec 3
  /-- The slot being serialized (rule R17). -/
  c : BitVec 6
  /-- The pixel bit index (rule R18). -/
  b : BitVec 3
  /-- The characters stored by the current fill (rule R19). -/
  k : BitVec 4
  /-- TB, the text buffer (rules R20, R36). -/
  tb : Memory
  /-- The refresh counter, exact (rules R5, R23). -/
  refreshCtr : Nat
  /-- The line counter (rule R24). -/
  lineCtr : BitVec 2
  /-- The last fill stored 15 characters (rule R25). -/
  wrapPending : Bool
  /-- The Fireworks sub-cycle: `false` is the source's phase 1 (rule R26). -/
  fwPhase : Bool
  /-- End-of-input was reached with EXIT_ON_EOF = 0 (rule R27). -/
  frozen : Bool
  /-- The MODE code (rules R28, R60). -/
  mode : BitVec 3
  /-- CFG (rule R29). -/
  cfg : BitVec 8
  /-- SCROLL_DELAY (rule R30). -/
  scrollDelay : BitVec 32
  /-- THREE_LINE_DELAY (rule R31). -/
  threeLineDelay : BitVec 32
  /-- STATIC_TEXT (rule R32). -/
  staticText : List Byte
  /-- The start sequence has run (rules R33, R104, R159); the model's own. -/
  started : Bool
  /-- The parameters of rule R3, carried along; the model's own. -/
  params : Params
  /-- The line events emitted so far in this run, the newest first (rules R8, R73); the model's own. -/
  trace : List LineEvent
  /-- The symbols the host will offer at the IN port, in order: the head is on offer while the phase is RD_L or RD_V, and in no
  other phase (rules R35, R42, R68, R155); the host's. -/
  inScript : List (BitVec 9)
  /-- The next answers of the CLOCK port that are given outright (rules R43, R68); the host's. -/
  clockScript : List Instant
  /-- The number of samples of the CLOCK port taken so far; the model's own. -/
  clockCtr : Nat
  /-- The next draws of the RNG port that are given outright, each an answer if it is at most RAND_MAX (rules R44, R68, R155); the
  host's. -/
  drawScript : List Nat
  /-- The number of draws taken so far; the model's own. -/
  drawCtr : Nat
  deriving DecidableEq, Repr

/-- The ways a step can stop without a next state because the state is one that no run reaches. The spec's own faults: none
(rule R143). -/
inductive Fault where
  /-- Raised by `step` in a phase code 13 to 15: the spec's `stuck` (rules R65, R145). Safe: no run reaches it. -/
  | stuckPhase
  /-- Raised by PHASE_TICK when MODE is STATIC or the unused code 7, for which rule R102 has no case (`stuck`,
  `93_implementation_defined.md` I7). Safe: no run reaches it. -/
  | stuckTick
  /-- Raised by PHASE_DATA when the slot register holds 46 to 63: no such slot (rules R17, R36). Safe: no run reaches it. -/
  | noSuchSlot
  deriving DecidableEq, Repr

/-- The ways a step is refused by name. -/
inductive Refusal where
  /-- An instruction that has no meaning yet, by its mnemonic. Raised by `exec`'s refused arms only. Safe. -/
  | notModelled (mnemonic : String)
  /-- CFG_BAD_SCROLL (rules R61, R104), raised by the MODE_REFUSE_BAD_SCROLL row. As the spec says. -/
  | cfgBadScroll
  /-- CFG_BAD_EFFECT (rules R61, R104), raised by the MODE_REFUSE_BAD_EFFECT row. As the spec says. -/
  | cfgBadEffect
  /-- CFG_STATIC_DATE (rules R61, R104), raised by the MODE_REFUSE_STATIC_DATE row. As the spec says. -/
  | cfgStaticDate
  /-- CFG_STATIC_EFFECT (rules R61, R104), raised by the MODE_REFUSE_STATIC_SNOW and MODE_REFUSE_STATIC_FW rows. As the
  spec says. -/
  | cfgStaticEffect
  /-- CFG_DATE_EFFECT (rules R61, R104), raised by the MODE_REFUSE_DATE_SNOW and MODE_REFUSE_DATE_FW rows. As the spec
  says. -/
  | cfgDateEffect
  /-- The phase is HALT, the final state: no step is enabled (rules R108, R145). Raised by PHASE_HALT. As the spec says. -/
  | halted
  /-- A symbol is handed over in a phase that reads none, a move the host does not have (rules R116, R156). Raised by the
  SYM rows, never by `step`. Safe: nothing in the block can do it. -/
  | noReadInProgress
  /-- GLYPH_ROW is called with a row above 6, which rule R86 lets a model refuse. Raised by PHASE_DATA when the row
  register holds 7. Safe: no run reaches it. -/
  | noSuchGlyphRow
  deriving DecidableEq, Repr

/-- The state right after reset with nothing configured: the start sequence has run on the defaults CFG = 0x00,
SCROLL_DELAY = 40, THREE_LINE_DELAY = 0 and an empty STATIC_TEXT, so MODE is LEFT (rules R29 to R32, R158, R159). The
parameters are not known, and the host has lined up nothing. -/
def State.reset : State where
  lv := LineLevels.unknown
  phase := 0
  p := 0
  c := 45
  b := 7
  k := 0
  tb := []
  refreshCtr := 0
  lineCtr := 0
  wrapPending := false
  fwPhase := false
  frozen := false
  mode := 4
  cfg := 0x00
  scrollDelay := 40
  threeLineDelay := 0
  staticText := []
  started := true
  params := Config.params
  trace := []
  inScript := []
  clockScript := []
  clockCtr := 0
  drawScript := []
  drawCtr := 0

end Sys2Proof.Machine
end

