-- ==== Sys2Proof/Machine/Operands.lean ====
section
/-! DEFINITION. The operands of rule R63 and the parameters' values: normalization, the glyph lookup, the row mapping, the
row-select bits, the fill base and the delay threshold. -/

namespace Sys2Proof.Machine

/-- `norm(x)`: a byte above 127 becomes 0 (rule R83). -/
def norm (x : Byte) : Byte := if x > 127 then 0 else x

theorem norm_lt (x : Byte) : (norm x).toNat < 128 := by
  unfold norm
  split
  · simp
  · next h => have := BitVec.not_lt.mp h; simpa [BitVec.le_def, Nat.lt_succ_iff] using this

/-- A code of at most 127 as a byte: zero-extended (rule R5). -/
def byteOfCode (x : Code7) : Byte := x.setWidth 8

/-- FONT[c][r], the flat byte `7 * c + r` (rules R22, R39). -/
def fontByte (P : Params) (c : Fin 128) (r : Fin 7) : Byte := P.font[7 * c.val + r.val]

/-- GLYPH_ROW(code, row) on a row that exists (rule R82). -/
def glyphByte (P : Params) (code : Byte) (row : Fin 7) : Byte := fontByte P ⟨(norm code).toNat, norm_lt code⟩ row

/-- GLYPH_ROW(code, row): no meaning for a row above 6 (rules R82, R86). -/
def glyphRow (P : Params) (code : Byte) (row : Nat) : Option Byte :=
  if h : row < 7 then some (glyphByte P code ⟨row, h⟩) else none

/-- The glyph row serialized during the pass for physical row `p`: `g(p)` (rule R88). -/
def glyphRowOfPass (p : BitVec 3) : Nat := if p = 6 then 0 else p.toNat + 1

/-- The level driven on row-select A, B or C: bit 0, 1 or 2 of `p` (rule R89). -/
def rowSelectBit (p : BitVec 3) (line : Nat) : Level := p.getLsbD line

/-- The pixel level `x[b]` of a glyph-row byte (rule R84). -/
def pixelLevel (x : Byte) (b : BitVec 3) : Level := x.getLsbD b.toNat

/-- RAND_MAX, at least 1 (rule R3). -/
def randMax (P : Params) : Nat := P.randMaxLessOne + 1

/-- T_SETTLE, above 0 (rule R3). -/
def tSettle (P : Params) : Nat := P.tSettleLessOne + 1

/-- MODE is ScrollUp or ScrollDown (rules R24, R105). -/
def isLineScroll (mode : BitVec 3) : Bool := mode == Mode.up.code || mode == Mode.down.code

/-- The first slot of the line that RD_V fills (rule R127, as rule R132 computes it). -/
def fillBase (mode : BitVec 3) : Nat := if mode = Mode.up.code then Config.bottomLine else 0

/-- THRESHOLD(), in exact natural numbers (rule R105). -/
def threshold (s : State) : Nat :=
  s.scrollDelay.toNat + if isLineScroll s.mode && s.lineCtr == 3 then s.threeLineDelay.toNat else 0

end Sys2Proof.Machine
end

