-- ==== Sys2Proof/Machine/Ops.lean ====
section
/-! DEFINITION. The named operations of rule R6 over the state: the text buffer, the line driver, the ports and the sequencer.

TAKING AN EXCEPTION: the block has none (rules R143, R146, R148): no cause, no saved state, no vector, no handler and no return
from one, so no operation here takes one. The one change of control that the source calls recovery, the end-of-input policy of
rule R117, is an ordinary step and stands in Machine/Flags.lean. -/

namespace Sys2Proof.Machine

/-! ## The text buffer -/

/-- What a slot that is not listed reads as: the reset contents, a space (rule R20). -/
def Memory.blank : Byte := Config.space

/-- Read slot `a`. -/
def Memory.read : Memory → Nat → Byte
  | [], _ => Memory.blank
  | (a', v) :: m, a => if a = a' then v else Memory.read m a

/-- Write `v` into slot `a`, keeping the canonical form. -/
def Memory.write : Memory → Nat → Byte → Memory
  | [], a, v => if v = Memory.blank then [] else [(a, v)]
  | (a', v') :: m, a, v =>
    if a < a' then (if v = Memory.blank then (a', v') :: m else (a, v) :: (a', v') :: m)
    else if a = a' then (if v = Memory.blank then m else (a, v) :: m)
    else (a', v') :: Memory.write m a v

/-- The canonical form from slot `lo` on: slots rising, all of them slots of TB, no entry equal to `Memory.blank`. -/
def Memory.wfFrom (lo : Nat) : Memory → Bool
  | [] => true
  | (a, v) :: m => decide (lo ≤ a) && decide (a < Config.nSlots) && v != Memory.blank && Memory.wfFrom (a + 1) m

/-- The canonical form of the text buffer (rule R36: slots 0 to 45). -/
def Memory.wf (m : Memory) : Bool := Memory.wfFrom 0 m

/-- The loop of `Memory.fill`. -/
def Memory.fillUpTo (m : Memory) (lo : Nat) (f : Nat → Byte) : Nat → Memory
  | 0 => m
  | n + 1 => (Memory.fillUpTo m lo f n).write (lo + n) (f n)

/-- Write `f 0, f 1, …` into the `n` slots from `lo` on. A copy inside the buffer gives `f` by reading the buffer as it was:
the loops of rules R124, R125, R126 and R136 are ordered so that each slot gets an old value. Irreducible, or the elaborator
would unfold a fill of 45 slots of an unknown buffer over and over; the kernel evaluates it all the same. -/
@[irreducible] def Memory.fill (m : Memory) (lo : Nat) (f : Nat → Byte) (n : Nat) : Memory := m.fillUpTo lo f n

/-- TB[i], for a slot that exists (rules R6, R36). -/
def State.readSlot (s : State) (i : Nat) : Option Byte := if i < Config.nSlots then some (s.tb.read i) else none

/-! ## Output lines -/

/-- LV[l] (rule R14). -/
def LineLevels.get (lv : LineLevels) : Line → Option Level
  | .sclk => lv.sclk
  | .sdata => lv.sdata
  | .stb => lv.stb
  | .rowa => lv.rowa
  | .rowb => lv.rowb
  | .rowc => lv.rowc

/-- LV[l] ← v (rule R14). -/
def LineLevels.set (lv : LineLevels) (l : Line) (v : Level) : LineLevels :=
  match l with
  | .sclk => { lv with sclk := some v }
  | .sdata => { lv with sdata := some v }
  | .stb => { lv with stb := some v }
  | .rowa => { lv with rowa := some v }
  | .rowb => { lv with rowb := some v }
  | .rowc => { lv with rowc := some v }

/-- `SetLine(l, v)`: one line event (rules R41, R73, R80). The wait of T_SETTLE that follows leaves no state
(rules R169, R172; `notes/assumptions/5.md`). -/
def setLine (l : Line) (v : Level) (s : State) : State := { s with lv := s.lv.set l v, trace := ⟨l, v⟩ :: s.trace }

/-- The least time the events of this run have taken: T_SETTLE after each (rules R73, R162, R173). -/
def leastTime (s : State) : Nat := s.trace.length * tSettle s.params

/-! ## The sequencer -/

/-- `phase <- P` (rule R6). -/
def goto (P : Phase) (s : State) : State := { s with phase := P.code }

/-- END_TICK (rule R106). -/
def endTick (s : State) : State := goto .rowA { s with p := 0 }

/-! ## The ports -/

/-- The read of the symbol the host offers: it is consumed (rules R42, R109). -/
def consumeSymbol (s : State) : State := { s with inScript := s.inScript.tail }

/-- The next answer of the CLOCK port: the next instant given outright, else a free one (rule R43). -/
def nextInstant (s : State) : Instant := s.clockScript.head?.getD (Config.freeInstant s.clockCtr)

/-- `Now()`: one sample of the CLOCK port, which always answers (rules R43, R155). -/
def now (s : State) : Instant × State :=
  (nextInstant s, { s with clockScript := s.clockScript.tail, clockCtr := s.clockCtr + 1 })

/-- The `n`-th answer of the RNG port from here, in 0 .. RAND_MAX: the one given outright, if there is one and it is in that
range, since the host has no other to give (rules R44, R155); else a free one. -/
def nthDraw (s : State) (n : Nat) : Nat :=
  match s.drawScript[n]? with
  | some r => if r ≤ randMax s.params then r else (Config.freeDraw (randMax s.params) (s.drawCtr + n)).val
  | none => (Config.freeDraw (randMax s.params) (s.drawCtr + n)).val

/-- `Draw()`: one draw of the RNG port, which always answers (rules R44, R155). -/
def draw (s : State) : Nat × State :=
  (nthDraw s 0, { s with drawScript := s.drawScript.tail, drawCtr := s.drawCtr + 1 })

/-- The loop of `fillByDraws`. -/
def fillByDrawsUpTo (lo mult : Nat) (glyph : Byte) : Nat → State → State
  | 0, s => s
  | n + 1, s =>
    let s1 := fillByDrawsUpTo lo mult glyph n s
    let (r, s2) := draw s1
    { s2 with tb := s2.tb.write (lo + n) (if mult * r > randMax s2.params then Config.space else glyph) }

/-- Fill `n` slots from `lo` on, one draw each in increasing order: the space where `mult * r > RAND_MAX`, else the glyph
(rules R136 to R139). Irreducible for the reason given at `Memory.fill`. -/
@[irreducible] def fillByDraws (lo mult : Nat) (glyph : Byte) (n : Nat) (s : State) : State :=
  fillByDrawsUpTo lo mult glyph n s

/-! ## Start -/

/-- The `i`-th byte of the text that STATIC_LOAD stores: normalized, padded with spaces (rule R118). -/
def staticByte (text : List Byte) (i : Nat) : Byte := if h : i < text.length then norm text[i] else Config.space

/-- STATIC_LOAD (rule R118). -/
def staticLoad (s : State) : State := { s with tb := s.tb.fill 0 (staticByte s.staticText) Config.nVisible }

/-- The start sequence once the CFG word `w` is decoded to a mode (rules R103, R118, R158, R159). The trace of the new run is
empty; what the host has lined up at the ports stays. -/
def start (w : BitVec 8) (m : Mode) (s : State) : State :=
  let s1 := { s with
    cfg := w, mode := m.code, started := true, tb := [], lv := LineLevels.unknown, phase := Phase.rowA.code, p := 0, c := 45,
    b := 7, k := 0, refreshCtr := 0, lineCtr := 0, wrapPending := false, fwPhase := false, frozen := false, trace := [] }
  if m = .static then staticLoad s1 else s1

end Sys2Proof.Machine
end

