-- ==== Sys2Proof/Machine/Flags.lean ====
section
/-! DEFINITION. The flags and counters of rules R23 to R27: who sets, clears and counts them. -/

namespace Sys2Proof.Machine

/-- One more line is complete: `line_ctr <- line_ctr + 1` (rules R129, R132). -/
def countLine (s : State) : State := { s with lineCtr := s.lineCtr + 1 }

/-- The wrap at the start of a ScrollUp or ScrollDown tick: 3 becomes 0 (rules R125, R126, R129). -/
def wrapLineCtr (s : State) : State := { s with lineCtr := if s.lineCtr = 3 then 0 else s.lineCtr }

/-- `wrap_pending <- v` (rules R25, R132, R133). -/
def setWrapPending (v : Bool) (s : State) : State := { s with wrapPending := v }

/-- EOF_POLICY: halt, or freeze the buffer and end the tick (rule R117). -/
def eofPolicy (s : State) : State := if cfgExitOnEof s.cfg then goto .halt s else endTick { s with frozen := true }

end Sys2Proof.Machine
end

