-- ==== Sys2Proof/Machine/Scroll.lean ====
section
/-! DEFINITION. ScrollLeft, ScrollUp and ScrollDown: the tick starts and what a read does with a symbol
(`46_scroll.md` rules R123 to R133). -/

namespace Sys2Proof.Machine

/-- TICK_LEFT (rule R123). -/
def tickLeft (s : State) : State := goto .rdL s

/-- The buffer of a ScrollUp tick: lines 2 and 3 move up, the bottom line is cleared to 0x00 (rule R125). -/
def scrolledUp (m : Memory) : Memory :=
  (m.fill 0 (fun i => m.read (i + 15)) 30).fill Config.bottomLine (fun _ => 0) Config.lineLength

/-- TICK_UP (rule R125). -/
def tickUp (s : State) : State :=
  let s1 := wrapLineCtr s
  goto .rdV { s1 with tb := scrolledUp s1.tb, k := 0 }

/-- The buffer of a ScrollDown tick: lines 1 and 2 move down, the top line is cleared to 0x00 (rule R126). -/
def scrolledDown (m : Memory) : Memory :=
  (m.fill Config.middleLine (fun i => m.read i) 30).fill 0 (fun _ => 0) Config.lineLength

/-- TICK_DOWN (rule R126). -/
def tickDown (s : State) : State :=
  let s1 := wrapLineCtr s
  goto .rdV { s1 with tb := scrolledDown s1.tb, k := 0 }

/-- The buffer after a ScrollLeft read of the byte `x`: `x` goes into slot 45 and slot `i` takes the old slot `i + 1`
(rule R124). -/
def scrolledLeft (x : Byte) (m : Memory) : Memory :=
  let appended := m.write Config.lookahead (norm x)
  appended.fill 0 (fun i => appended.read (i + 1)) 45

/-- A byte that ScrollLeft stores (rule R124). -/
def storeLeft (x : Byte) (s : State) : State := endTick { s with tb := scrolledLeft x s.tb }

/-- What RD_L does with the symbol it has read (rule R124): FF is an ordinary byte here. -/
def readLeft (x : SymClass) (s : State) : State :=
  match x with
  | .eof => eofPolicy s
  | .lf => goto .rdL s
  | .cr => goto .rdL s
  | .ff => storeLeft 12 s
  | .high byte => storeLeft byte s
  | .normal byte => storeLeft byte s

/-- The screen clear of a form-feed: slots 0 to 44 become spaces (rules R113, R132). -/
def clearScreen (s : State) : State := { s with tb := s.tb.fill 0 (fun _ => Config.space) Config.nVisible }

/-- An LF in a fill: absorbed after a full line, else it ends the fill (rules R132, R133). -/
def endLine (s : State) : State :=
  if s.k = 0 ∧ s.wrapPending = true then goto .rdV (setWrapPending false s)
  else endTick (countLine (setWrapPending false s))

/-- A byte that a fill stores; the fifteenth ends it (rules R127, R132). -/
def storeInLine (x : Byte) (s : State) : State :=
  let s1 := { setWrapPending false s with tb := s.tb.write (fillBase s.mode + s.k.toNat) (norm x), k := s.k + 1 }
  if s1.k = 15 then endTick (countLine (setWrapPending true s1)) else goto .rdV s1

/-- What RD_V does with the symbol it has read (rule R132). -/
def readLine (x : SymClass) (s : State) : State :=
  match x with
  | .eof => eofPolicy s
  | .cr => goto .rdV s
  | .lf => endLine s
  | .ff => endTick { clearScreen (setWrapPending false s) with lineCtr := 0 }
  | .high byte => storeInLine byte s
  | .normal byte => storeInLine byte s

end Sys2Proof.Machine
end

