-- ==== Sys2Proof/Machine/Input.lean ====
section
/-! DEFINITION. The read phases RD_L and RD_V (rules R109, R124, R132) and the symbol rows SYM_EOF to SYM_NORMAL
(`44_input.md` rules R110 to R115). A symbol row is the read step on a symbol of its class: it consumes the symbol at the IN
port, and the read phase in force says what it does. -/

namespace Sys2Proof.Machine

/-- RD_L: one ScrollLeft read (rule R124). While the host offers no symbol the block waits: nothing changes
(rule R109; `notes/assumptions/2.md`). -/
def execPhaseRdL (s : State) : Host.Outcome State Fault Refusal :=
  match s.inScript with
  | [] => .next s
  | x :: _ => .next (readLeft (classOf x) (consumeSymbol s))

/-- RD_V: one ScrollUp or ScrollDown read (rule R132). While the host offers no symbol the block waits: nothing changes
(rule R109; `notes/assumptions/2.md`). -/
def execPhaseRdV (s : State) : Host.Outcome State Fault Refusal :=
  match s.inScript with
  | [] => .next s
  | x :: _ => .next (readLine (classOf x) (consumeSymbol s))

/-- The read step on a symbol of the given class, in the phase in force (rule R72's table). Only RD_L and RD_V read
(rules R134, R156). -/
def readSymbol (x : SymClass) (s : State) : Host.Outcome State Fault Refusal :=
  if s.phase = Phase.rdL.code then .next (readLeft x (consumeSymbol s))
  else if s.phase = Phase.rdV.code then .next (readLine x (consumeSymbol s))
  else .refused .noReadInProgress

/-- SYM_EOF: the byte bits are ignored (rules R56, R110). -/
def execSymEof (_ignored : BitVec 8) (s : State) : Host.Outcome State Fault Refusal := readSymbol .eof s

/-- SYM_LF (rule R111). -/
def execSymLf (s : State) : Host.Outcome State Fault Refusal := readSymbol .lf s

/-- SYM_CR (rule R112). -/
def execSymCr (s : State) : Host.Outcome State Fault Refusal := readSymbol .cr s

/-- SYM_FF (rule R113). -/
def execSymFf (s : State) : Host.Outcome State Fault Refusal := readSymbol .ff s

/-- SYM_HIGH: the byte 128 + `low` (rule R114). -/
def execSymHigh (low : BitVec 7) (s : State) : Host.Outcome State Fault Refusal := readSymbol (.high (1#1 ++ low)) s

/-- SYM_NORMAL (rule R115). -/
def execSymNormal (code : BitVec 7) (s : State) : Host.Outcome State Fault Refusal := readSymbol (.normal (0#1 ++ code)) s

end Sys2Proof.Machine
end

