-- ==== Sys2Proof/Machine/LineDriver.lean ====
section
/-! DEFINITION. The six line-driver operations, the LINE_EVENT rows (`40_line_driver.md` rules R74 to R79). The scan phases
perform them inside their steps. -/

namespace Sys2Proof.Machine

/-- SET_SCLK (rule R74). -/
def execSetSclk (v : Level) (s : State) : Host.Outcome State Fault Refusal := .next (setLine .sclk v s)

/-- SET_SDATA (rule R75). -/
def execSetSdata (v : Level) (s : State) : Host.Outcome State Fault Refusal := .next (setLine .sdata v s)

/-- SET_STB (rule R76). -/
def execSetStb (v : Level) (s : State) : Host.Outcome State Fault Refusal := .next (setLine .stb v s)

/-- SET_ROWA (rule R77). -/
def execSetRowa (v : Level) (s : State) : Host.Outcome State Fault Refusal := .next (setLine .rowa v s)

/-- SET_ROWB (rule R78). -/
def execSetRowb (v : Level) (s : State) : Host.Outcome State Fault Refusal := .next (setLine .rowb v s)

/-- SET_ROWC (rule R79). -/
def execSetRowc (v : Level) (s : State) : Host.Outcome State Fault Refusal := .next (setLine .rowc v s)

end Sys2Proof.Machine
end

