-- ==== Sys2Proof/Machine/Effects.lean ====
section
/-! DEFINITION. The Snow and Fireworks ticks (`47_effects.md` rules R136 and R138). -/

namespace Sys2Proof.Machine

/-- A landscape as the bytes of the bottom line (rules R136, R138). -/
def landscapeByte (l : Vector Code7 15) (i : Nat) : Byte := if h : i < 15 then byteOfCode l[i] else 0

/-- TICK_SNOW (rules R136, R137). -/
def tickSnow (s : State) : State :=
  let copied := s.tb.fill Config.middleLine (fun i => s.tb.read i) Config.lineLength
  let grounded := copied.fill Config.bottomLine (landscapeByte s.params.landscapeSnow) Config.lineLength
  let cleared := grounded.fill 0 (fun _ => Config.space) Config.lineLength
  endTick (fillByDraws 0 2 (byteOfCode s.params.snowChar) Config.lineLength { s with tb := cleared })

/-- The bursts of TICK_FW's second phase: the tracer positions of the middle line go up, and the middle line is blanked
(rule R138). -/
def burstTracers (P : Params) (m : Memory) : Memory :=
  (m.fill 0
      (fun i => if m.read (Config.middleLine + i) = byteOfCode P.tracerChar then byteOfCode P.burstChar else Config.space)
      Config.lineLength).fill
    Config.middleLine (fun _ => Config.space) Config.lineLength

/-- TICK_FW (rules R138, R139). -/
def tickFw (s : State) : State :=
  let s1 := { s with tb := s.tb.fill Config.bottomLine (landscapeByte s.params.landscapeFw) Config.lineLength }
  if s.fwPhase = false then
    endTick { fillByDraws Config.middleLine 16 (byteOfCode s1.params.tracerChar) Config.lineLength s1 with fwPhase := true }
  else
    endTick { s1 with tb := burstTracers s1.params s1.tb, fwPhase := false }

end Sys2Proof.Machine
end

