-- ==== Sys2Proof/Machine/DateText.lean ====
section
/-! DEFINITION. DATE_TEXT (`45_text_modes.md` rule R121): the date as day/month/year, the time as HH:MM:SS and the weekday name,
each padded with spaces to its line of 15 slots. It is an argument of the model (`00_scope.md` rule R3): at each second, any
reading of a wall clock in any layout (`notes/assumptions/15.md`). -/

namespace Sys2Proof.Machine

/-! ## The fields -/

/-- The code of the low decimal digit of a number. The spec gives no codes of digits, so they are the layout's, and free
(`notes/assumptions/20.md`). -/
def digitCode (L : DateLayout) (n : Nat) : Code7 := L.digits[n % 10]

/-- The low `n` decimal digits of a number. -/
def decimal (L : DateLayout) (n x : Nat) : List Code7 := (List.range n).map fun i => digitCode L (x / 10 ^ (n - 1 - i))

/-- The number of decimal digits of a number, at most 11. -/
def digitCount (x : Nat) : Nat := ((List.range 10).countP fun i => decide (10 ^ (i + 1) ≤ x)) + 1

/-- A day or a month, which has at most two digits; `pad` stands before a number below 10 (rule R121). -/
def dayOrMonth (L : DateLayout) (pad : Option Code7) (x : Nat) : List Code7 :=
  if 10 ≤ x then decimal L 2 x else pad.toList ++ decimal L 1 x

/-- A year, with the layout's number of digits (rule R121). -/
def yearField (L : DateLayout) (x : Nat) : List Code7 :=
  match L.yearDigitsLessOne with
  | some n => decimal L (n.val + 1) x
  | none => decimal L (digitCount x) x

/-- The room that the day, the month and the year leave for the separators. -/
def separatorRoom (L : DateLayout) (r : ClockReading) : Nat :=
  Config.lineLength -
    ((dayOrMonth L L.padDay r.day).length + (dayOrMonth L L.padMonth r.month).length + (yearField L r.year).length)

/-- The separator of day and month: no more of it than the line has room for. -/
def daySeparatorField (L : DateLayout) (r : ClockReading) : List Code7 := L.daySeparator.codes.take (separatorRoom L r)

/-- The separator of month and year: no more of it than the line has room for. -/
def monthSeparatorField (L : DateLayout) (r : ClockReading) : List Code7 :=
  L.monthSeparator.codes.take (separatorRoom L r - (daySeparatorField L r).length)

/-- The date as day/month/year (rule R121). -/
def dateField (L : DateLayout) (r : ClockReading) : List Code7 :=
  dayOrMonth L L.padDay r.day ++ daySeparatorField L r ++ dayOrMonth L L.padMonth r.month ++ monthSeparatorField L r ++
    yearField L r.year

/-- The time as HH:MM:SS (rule R121; `notes/assumptions/20.md`). -/
def timeField (L : DateLayout) (r : ClockReading) : List Code7 :=
  decimal L 2 r.hour ++ L.colon :: decimal L 2 r.minute ++ L.colon :: decimal L 2 r.second

/-- The weekday name (rule R121). -/
def weekdayField (L : DateLayout) (r : ClockReading) : List Code7 := L.weekdays[r.weekday].1 :: L.weekdays[r.weekday].2.codes

/-! ## The lines -/

/-- The spaces before a field: no more than the line has room for. -/
def leadingSpaces (wanted : Fin 16) (field : List Code7) : Nat := min wanted.val (Config.lineLength - field.length)

/-- Slot `i` of a line that holds a field padded with leading and trailing spaces (rule R121). -/
def paddedCode (wanted : Fin 16) (field : List Code7) (i : Nat) : Code7 :=
  if i < leadingSpaces wanted field then 0x20 else (field[i - leadingSpaces wanted field]?).getD 0x20

/-- Slot `i` of the date text of a reading in a layout: date, time and weekday, a line each (rule R121). -/
def dateCode (L : DateLayout) (r : ClockReading) (i : Nat) : Code7 :=
  if i < Config.middleLine then paddedCode L.spacesBeforeDate (dateField L r) i
  else if i < Config.bottomLine then paddedCode L.spacesBeforeTime (timeField L r) (i - Config.middleLine)
  else paddedCode L.spacesBeforeWeekday (weekdayField L r) (i - Config.bottomLine)

/-- What the wall clock shows at an instant, and how the date text writes it: given outright, or free. Both are functions of the
second the instant falls in (rule R121). -/
def readingAndLayout (P : Params) (t : Instant) : ClockReading × DateLayout :=
  (P.dateTable.lookup t.second).getD (Config.clockReading t.second, Config.dateLayout t.second)

/-- DATE_TEXT(t): 45 codes (rule R121). -/
def dateText (P : Params) (t : Instant) : Vector Code7 45 :=
  let (r, L) := readingAndLayout P t
  ⟨((List.range Config.nVisible).map (dateCode L r)).toArray, by simp⟩

end Sys2Proof.Machine
end

