-- ==== Sys2Proof/Machine/TextModes.lean ====
section
/-! DEFINITION. The DateOverlay tick (`45_text_modes.md` rule R120). STATIC_LOAD, rule R118, is part of the start and stands in
Machine/Ops.lean. -/

namespace Sys2Proof.Machine

/-- The buffer of a DATE tick: 45 bytes of DATE_TEXT and the terminator 0x00 in slot 45 (rules R120, R121). -/
def dated (d : Vector Code7 45) (m : Memory) : Memory :=
  (m.fill 0 (fun i => if h : i < 45 then byteOfCode d[i] else 0) Config.nVisible).write Config.lookahead 0

/-- TICK_DATE: the clock is sampled once (rule R120). -/
def tickDate (s : State) : State :=
  let (t, s1) := now s
  endTick { s1 with tb := dated (dateText s1.params t) s1.tb }

end Sys2Proof.Machine
end

