-- ==== Sys2Proof/Machine/Loop.lean ====
section
/-! DEFINITION. The governing loop: POST, TICK and HALT (`43_loop_dispatch.md` rules R101, R102 and R108). -/

namespace Sys2Proof.Machine

/-- POST's count of the finished refresh, with the tick that may be due (rule R101). -/
def countRefresh (s : State) : State :=
  if s.mode = Mode.static.code ∨ s.frozen = true then goto .rowA { s with p := 0 }
  else
    let s1 := { s with refreshCtr := s.refreshCtr + 1 }
    if s1.refreshCtr ≥ threshold s1 then goto .tick { s1 with refreshCtr := 0 }
    else goto .rowA { s1 with p := 0 }

/-- POST: count the refresh, start a tick when one is due (rule R101). -/
def execPhasePost (s : State) : Host.Outcome State Fault Refusal := .next (countRefresh s)

/-- TICK: start the tick of MODE (rule R102). STATIC and the unused MODE code have no case. -/
def execPhaseTick (s : State) : Host.Outcome State Fault Refusal :=
  match modeOfCode s.mode with
  | some .date => .next (tickDate s)
  | some .snow => .next (tickSnow s)
  | some .fw => .next (tickFw s)
  | some .left => .next (tickLeft s)
  | some .up => .next (tickUp s)
  | some .down => .next (tickDown s)
  | some .static => .fault .stuckTick
  | none => .fault .stuckTick

/-- HALT: no step is enabled (rule R108). -/
def execPhaseHalt (_s : State) : Host.Outcome State Fault Refusal := .refused .halted

end Sys2Proof.Machine
end

