-- ==== Sys2Proof/Machine/ModeSelect.lean ====
section
/-! DEFINITION. The rows of the mode decode (rule R61) as what they do: a mode row starts a run in its mode (rules R103, R159), a
refusal row refuses the configuration by name, and the block never starts (rule R104). -/

namespace Sys2Proof.Machine

/-- MODE_REFUSE_BAD_SCROLL, row 1 (rules R61, R104). -/
def execModeRefuseBadScroll (_x _d _s : Bool) (_effect : BitVec 2) (_v : Bool) (_st : State) :
    Host.Outcome State Fault Refusal := .refused .cfgBadScroll

/-- MODE_REFUSE_BAD_EFFECT, row 2 (rules R61, R104). -/
def execModeRefuseBadEffect (_x _d _s : Bool) (_scroll : BitVec 2) (_v : Bool) (_st : State) :
    Host.Outcome State Fault Refusal := .refused .cfgBadEffect

/-- MODE_REFUSE_STATIC_DATE, row 3 (rules R61, R104). -/
def execModeRefuseStaticDate (_x : Bool) (_scroll _effect : BitVec 2) (_v : Bool) (_st : State) :
    Host.Outcome State Fault Refusal := .refused .cfgStaticDate

/-- MODE_REFUSE_STATIC_SNOW, row 4 (rules R61, R104). -/
def execModeRefuseStaticSnow (_x : Bool) (_scroll : BitVec 2) (_v : Bool) (_st : State) :
    Host.Outcome State Fault Refusal := .refused .cfgStaticEffect

/-- MODE_REFUSE_STATIC_FW, row 5 (rules R61, R104). -/
def execModeRefuseStaticFw (_x : Bool) (_scroll : BitVec 2) (_v : Bool) (_st : State) :
    Host.Outcome State Fault Refusal := .refused .cfgStaticEffect

/-- MODE_REFUSE_DATE_SNOW, row 6 (rules R61, R104). -/
def execModeRefuseDateSnow (_x : Bool) (_scroll : BitVec 2) (_v : Bool) (_st : State) :
    Host.Outcome State Fault Refusal := .refused .cfgDateEffect

/-- MODE_REFUSE_DATE_FW, row 7 (rules R61, R104). -/
def execModeRefuseDateFw (_x : Bool) (_scroll : BitVec 2) (_v : Bool) (_st : State) :
    Host.Outcome State Fault Refusal := .refused .cfgDateEffect

/-- MODE_STATIC, row 8. -/
def execModeStatic (x : Bool) (scroll : BitVec 2) (v : Bool) (s : State) : Host.Outcome State Fault Refusal :=
  .next (start (cfgWord x false true scroll 0 v) .static s)

/-- MODE_DATE, row 9. -/
def execModeDate (x : Bool) (scroll : BitVec 2) (v : Bool) (s : State) : Host.Outcome State Fault Refusal :=
  .next (start (cfgWord x true false scroll 0 v) .date s)

/-- MODE_SNOW, row 10. -/
def execModeSnow (x : Bool) (scroll : BitVec 2) (v : Bool) (s : State) : Host.Outcome State Fault Refusal :=
  .next (start (cfgWord x false false scroll 1 v) .snow s)

/-- MODE_FW, row 11. -/
def execModeFw (x : Bool) (scroll : BitVec 2) (v : Bool) (s : State) : Host.Outcome State Fault Refusal :=
  .next (start (cfgWord x false false scroll 2 v) .fw s)

/-- MODE_LEFT, row 12. -/
def execModeLeft (x v : Bool) (s : State) : Host.Outcome State Fault Refusal :=
  .next (start (cfgWord x false false 0 0 v) .left s)

/-- MODE_UP, row 13. -/
def execModeUp (x v : Bool) (s : State) : Host.Outcome State Fault Refusal :=
  .next (start (cfgWord x false false 1 0 v) .up s)

/-- MODE_DOWN, row 14. -/
def execModeDown (x v : Bool) (s : State) : Host.Outcome State Fault Refusal :=
  .next (start (cfgWord x false false 2 0 v) .down s)

end Sys2Proof.Machine
end

