-- ==== Sys2Proof/Machine/ScanOut.lean ====
section
/-! DEFINITION. The eight scan phases (`42_scan_out.md` rules R91 to R98). -/

namespace Sys2Proof.Machine

/-- ROW_A: drive row-select A (rule R91). -/
def execPhaseRowA (s : State) : Host.Outcome State Fault Refusal :=
  .next (goto .rowB (setLine .rowa (rowSelectBit s.p 0) s))

/-- ROW_B: drive row-select B (rule R92). -/
def execPhaseRowB (s : State) : Host.Outcome State Fault Refusal :=
  .next (goto .rowC (setLine .rowb (rowSelectBit s.p 1) s))

/-- ROW_C: drive row-select C, start at slot 45, bit 7 (rule R93). -/
def execPhaseRowC (s : State) : Host.Outcome State Fault Refusal :=
  .next (goto .data { setLine .rowc (rowSelectBit s.p 2) s with c := 45, b := 7 })

/-- DATA: drive one pixel bit onto shift data (rule R94). -/
def execPhaseData (s : State) : Host.Outcome State Fault Refusal :=
  match s.readSlot s.c.toNat with
  | none => .fault .noSuchSlot
  | some code =>
    match glyphRow s.params code (glyphRowOfPass s.p) with
    | none => .refused .noSuchGlyphRow
    | some x => .next (goto .clkH (setLine .sdata (pixelLevel x s.b) s))

/-- CLK_H: raise the shift clock (rule R95). -/
def execPhaseClkH (s : State) : Host.Outcome State Fault Refusal := .next (goto .clkL (setLine .sclk true s))

/-- CLK_L's advance to the next bit, the next slot or the strobe (rule R96). -/
def advanceBit (s : State) : State :=
  if s.b > 2 then goto .data { s with b := s.b - 1 }
  else if s.c > 0 then goto .data { s with c := s.c - 1, b := 7 }
  else goto .stbH s

/-- CLK_L: lower the shift clock and advance (rule R96). -/
def execPhaseClkL (s : State) : Host.Outcome State Fault Refusal := .next (advanceBit (setLine .sclk false s))

/-- STB_H: raise the strobe (rule R97). -/
def execPhaseStbH (s : State) : Host.Outcome State Fault Refusal := .next (goto .stbL (setLine .stb true s))

/-- STB_L's advance to the next row or to POST (rule R98). -/
def advanceRow (s : State) : State :=
  if s.p < 6 then goto .rowA { s with p := s.p + 1 } else goto .post s

/-- STB_L: lower the strobe and advance (rule R98). -/
def execPhaseStbL (s : State) : Host.Outcome State Fault Refusal := .next (advanceRow (setLine .stb false s))

end Sys2Proof.Machine
end

