-- ==== Sys2Proof/Machine/Dispatch.lean ====
section
/-! DEFINITION. One arm per row of the opcode table. -/

namespace Sys2Proof.Machine

def exec (i : Instr) (s : State) : Host.Outcome State Fault Refusal :=
  match i with
  | .setSclk a => Sys2Proof.Machine.execSetSclk a s
  | .setSdata a => Sys2Proof.Machine.execSetSdata a s
  | .setStb a => Sys2Proof.Machine.execSetStb a s
  | .setRowa a => Sys2Proof.Machine.execSetRowa a s
  | .setRowb a => Sys2Proof.Machine.execSetRowb a s
  | .setRowc a => Sys2Proof.Machine.execSetRowc a s
  | .symEof a => Sys2Proof.Machine.execSymEof a s
  | .symLf => Sys2Proof.Machine.execSymLf s
  | .symCr => Sys2Proof.Machine.execSymCr s
  | .symFf => Sys2Proof.Machine.execSymFf s
  | .symHigh a => Sys2Proof.Machine.execSymHigh a s
  | .symNormal a => Sys2Proof.Machine.execSymNormal a s
  | .modeRefuseBadScroll a b c d e => Sys2Proof.Machine.execModeRefuseBadScroll a b c d e s
  | .modeRefuseBadEffect a b c d e => Sys2Proof.Machine.execModeRefuseBadEffect a b c d e s
  | .modeRefuseStaticDate a b c d => Sys2Proof.Machine.execModeRefuseStaticDate a b c d s
  | .modeRefuseStaticSnow a b c => Sys2Proof.Machine.execModeRefuseStaticSnow a b c s
  | .modeRefuseStaticFw a b c => Sys2Proof.Machine.execModeRefuseStaticFw a b c s
  | .modeRefuseDateSnow a b c => Sys2Proof.Machine.execModeRefuseDateSnow a b c s
  | .modeRefuseDateFw a b c => Sys2Proof.Machine.execModeRefuseDateFw a b c s
  | .modeStatic a b c => Sys2Proof.Machine.execModeStatic a b c s
  | .modeDate a b c => Sys2Proof.Machine.execModeDate a b c s
  | .modeSnow a b c => Sys2Proof.Machine.execModeSnow a b c s
  | .modeFw a b c => Sys2Proof.Machine.execModeFw a b c s
  | .modeLeft a b => Sys2Proof.Machine.execModeLeft a b s
  | .modeUp a b => Sys2Proof.Machine.execModeUp a b s
  | .modeDown a b => Sys2Proof.Machine.execModeDown a b s
  | .phaseRowA => Sys2Proof.Machine.execPhaseRowA s
  | .phaseRowB => Sys2Proof.Machine.execPhaseRowB s
  | .phaseRowC => Sys2Proof.Machine.execPhaseRowC s
  | .phaseData => Sys2Proof.Machine.execPhaseData s
  | .phaseClkH => Sys2Proof.Machine.execPhaseClkH s
  | .phaseClkL => Sys2Proof.Machine.execPhaseClkL s
  | .phaseStbH => Sys2Proof.Machine.execPhaseStbH s
  | .phaseStbL => Sys2Proof.Machine.execPhaseStbL s
  | .phasePost => Sys2Proof.Machine.execPhasePost s
  | .phaseTick => Sys2Proof.Machine.execPhaseTick s
  | .phaseRdL => Sys2Proof.Machine.execPhaseRdL s
  | .phaseRdV => Sys2Proof.Machine.execPhaseRdV s
  | .phaseHalt => Sys2Proof.Machine.execPhaseHalt s

end Sys2Proof.Machine
end

