-- ==== Sys2Proof/Machine/Fetch.lean ====
section
/-! DEFINITION. What the next step executes. The block has no program memory (rule R52): the phase register is its operation code
(rules R8, R62), and before the start its configuration word is what is decoded (rules R103, R159). -/

namespace Sys2Proof.Machine

/-- The instruction of the next step: the micro-operation of the phase, or before the start the mode decode's row. -/
def fetch (s : State) : Except DecodeError Instr := if s.started then decodePhase s.phase else .ok (decodeCfg s.cfg)

/-- The read phase that consumes the next symbol: the one in force, else the one of MODE (rules R123, R125, R126). -/
def readPhaseFor (s : State) : BitVec 4 :=
  if s.phase = Phase.rdL.code ∨ s.phase = Phase.rdV.code then s.phase
  else if s.mode = Mode.up.code ∨ s.mode = Mode.down.code then Phase.rdV.code
  else Phase.rdL.code

/-- Put a table word where the next step takes it from: a PHASE code in the phase register, a CFG word in CFG before the
start, a symbol at the head of the IN port in a read phase (`notes/assumptions/6.md`, `notes/assumptions/7.md`). -/
def placeWord (s : State) (nbits w : Nat) : State :=
  if nbits ≤ 8 then
    if w < 16 then { s with started := true, phase := BitVec.ofNat 4 w }
    else { s with started := false, cfg := BitVec.ofNat 8 w }
  else { s with started := true, phase := readPhaseFor s, inScript := BitVec.ofNat 9 w :: s.inScript }

end Sys2Proof.Machine
end

