-- ==== Sys2Proof/Machine/Step.lean ====
section
/-! DEFINITION. One step: the instruction that `fetch` gives, executed (rule R8). -/

namespace Sys2Proof.Machine

/-- One step of the sequencer; a phase code 13 to 15 has none (rules R8, R65). Before the start, the start sequence. -/
def step (s : State) : Host.Outcome State Fault Refusal :=
  match fetch s with
  | .ok i => exec i s
  | .error _ => .fault .stuckPhase

/-- The state whose next step runs the given table word. -/
def State.withFetchWord (s : State) (nbits w : Nat) : State := placeWord s nbits w

end Sys2Proof.Machine
end

