-- ==== Sys2Proof/Machine/Scenario.lean ====
section
/-! DEFINITION. The host's side: what it may do and when (rules R33, R155, R156), and a scenario with its run (rules R68, R174). -/

namespace Sys2Proof.Machine

/-- The block before the start: the configuration registers at their defaults (rules R29 to R33), nothing lined up. -/
def State.beforeStart (P : Params) : State := { State.reset with params := P, started := false }

/-- The host configures the block; after the start it has no write path (rules R33, R155, R156). -/
def State.configure (cfg : BitVec 8) (scrollDelay threeLineDelay : BitVec 32) (staticText : List Byte) (s : State) : State :=
  if s.started then s
  else { s with cfg := cfg, scrollDelay := scrollDelay, threeLineDelay := threeLineDelay, staticText := staticText }

/-- The phase reads input: RD_L or RD_V (rules R109, R134). -/
def State.reads (s : State) : Bool := s.started && (s.phase == Phase.rdL.code || s.phase == Phase.rdV.code)

/-- The block waits on the host (rules R109, R145). -/
def State.waits (s : State) : Bool := s.reads && s.inScript.isEmpty

/-- The symbol that is on offer at the IN port: the host offers none while the phase is not RD_L or RD_V, whatever it will
offer later (rules R155, R156). -/
def State.offered (s : State) : Option (BitVec 9) := if s.reads then s.inScript.head? else none

/-- The host offers one symbol, which it can do only while a read waits for one (rules R155, R156). -/
def State.offer (x : BitVec 9) (s : State) : State := if s.waits then { s with inScript := [x] } else s

/-- The tick that is about to run samples the clock: a DATE tick (rules R43, R155). -/
def State.samplesClock (s : State) : Bool := s.started && s.phase == Phase.tick.code && s.mode == Mode.date.code

/-- The tick that is about to run takes draws: a SNOW tick, or an FW tick in the source's phase 1 (rules R44, R155). -/
def State.takesDraws (s : State) : Bool :=
  s.started && s.phase == Phase.tick.code && (s.mode == Mode.snow.code || s.mode == Mode.fw.code && !s.fwPhase)

/-- The line events that the host sees, in order (rules R8, R155). -/
def State.observed (s : State) : List LineEvent := s.trace.reverse

/-- What the host can do to the block: the five rows of rule R155 and nothing else (rule R156). -/
inductive HostMove where
  | configure (cfg : BitVec 8) (scrollDelay threeLineDelay : BitVec 32) (staticText : List Byte)
  | offer (x : BitVec 9)
  | answerNow (t : Instant)
  | supplyDraw (r : Nat)
  | observe
  deriving DecidableEq, Repr

/-- When the host has a move (the second column of rule R155; a draw is in 0 .. RAND_MAX, and a tick takes 15). -/
def State.permits (s : State) : HostMove → Bool
  | .configure _ _ _ _ => !s.started
  | .offer _ => s.waits
  | .answerNow _ => s.samplesClock && s.clockScript.isEmpty
  | .supplyDraw r => s.takesDraws && decide (s.drawScript.length < Config.lineLength) && decide (r ≤ randMax s.params)
  | .observe => true

/-- The block after a move of the host; a move that the host does not have is none (rules R155, R156). -/
def State.afterMove (s : State) (m : HostMove) : Option State :=
  if s.permits m then
    match m with
    | .configure cfg scrollDelay threeLineDelay staticText =>
      some (State.configure cfg scrollDelay threeLineDelay staticText s)
    | .offer x => some (State.offer x s)
    | .answerNow t => some { s with clockScript := [t] }
    | .supplyDraw r => some { s with drawScript := s.drawScript ++ [r] }
    | .observe => some s
  else none

/-- The symbols of a text (rules R56, R68): a quoted string stands for its bytes. -/
def symbolsOf (bytes : List Byte) : List (BitVec 9) := bytes.map (fun x => x.setWidth 9)

/-- The end symbol (rules R56, R68). -/
def eofSymbol : BitVec 9 := 0x100

/-- The directives of rule R68, less RUN, which is the first argument of `Scenario.run`. -/
structure Scenario where
  cfg : BitVec 8 := 0x00
  scrollDelay : BitVec 32 := 40
  threeLineDelay : BitVec 32 := 0
  staticText : List Byte := []
  input : List (BitVec 9) := []
  draws : List Nat := []
  clock : List Instant := []
  deriving DecidableEq, Repr

/-- The draws of a scenario are in 0 .. RAND_MAX (rules R44, R68, R155). -/
def Scenario.wf (P : Params) (sc : Scenario) : Bool := sc.draws.all fun r => decide (r ≤ randMax P)

/-- The block configured by a scenario, before the start (rules R68, R159). -/
def Scenario.initial (P : Params) (sc : Scenario) : State :=
  { State.configure sc.cfg sc.scrollDelay sc.threeLineDelay sc.staticText (State.beforeStart P) with
    inScript := sc.input, drawScript := sc.draws, clockScript := sc.clock }

/-- How a `RUN n` ends (rules R145, R174). -/
inductive RunEnd where
  /-- The n-th POST step has been taken. -/
  | posts (s : State)
  /-- HALT was entered. -/
  | halted (s : State)
  /-- A read phase has no symbol left to read. -/
  | waiting (s : State)
  /-- The configuration is refused, or a state no run reaches was refused. -/
  | refused (r : Refusal)
  /-- A state no run reaches was faulted. -/
  | fault (f : Fault)
  /-- A draw of the scenario is above RAND_MAX: no host supplies it. -/
  | badScenario
  /-- The bound on the steps was reached first. -/
  | outOfSteps (s : State)
  deriving DecidableEq, Repr

/-- `RUN n` from a state, for at most `steps` steps (rule R174): it ends at the n-th POST step, on entry into HALT, or in a
read phase with no symbol left to offer. -/
def runPosts : (steps n : Nat) → State → RunEnd
  | _, 0, s => .posts s
  | 0, _ + 1, s => .outOfSteps s
  | steps + 1, n + 1, s =>
    if s.started && s.phase == Phase.halt.code then .halted s
    else if s.waits then .waiting s
    else
      match step s with
      | .next s' => runPosts steps (if s.started && s.phase == Phase.post.code then n else n + 1) s'
      | .fault f => .fault f
      | .refused r => .refused r

/-- A scenario with its `RUN n`, for at most `steps` steps. -/
def Scenario.run (P : Params) (sc : Scenario) (n steps : Nat) : RunEnd :=
  if sc.wf P then runPosts steps n (sc.initial P) else .badScenario

end Sys2Proof.Machine
end

