-- ==== Sys2Proof/Machine/Trace.lean ====
section
/-! DEFINITION. The notation for traces (`30_encoding.md` rules R66, R67, R69) and the trace of a refresh as rule R87 gives it,
written from the loops of the rule and not from the phases. -/

namespace Sys2Proof.Machine

/-! ## Pseudo-instructions (rule R67) -/

/-- `PULSE l`. -/
def pulseEvents (l : Line) : List LineEvent := [⟨l, true⟩, ⟨l, false⟩]

/-- `SHIFT v`. -/
def shiftEvents (v : Level) : List LineEvent := ⟨.sdata, v⟩ :: pulseEvents .sclk

/-- `ROWSEL p`. -/
def rowSelEvents (p : BitVec 3) : List LineEvent :=
  [⟨.rowa, rowSelectBit p 0⟩, ⟨.rowb, rowSelectBit p 1⟩, ⟨.rowc, rowSelectBit p 2⟩]

/-- `LATCH`. -/
def latchEvents : List LineEvent := pulseEvents .stb

/-- `CHARBITS x`: the bits 7 down to 2 of a glyph-row byte (rule R84). -/
def charBitsEvents (x : Byte) : List LineEvent := [7, 6, 5, 4, 3, 2].flatMap fun i => shiftEvents (x.getLsbD i)

/-- The glyph row of pass `p` (rule R88). -/
def passGlyphRow (p : Fin 7) : Fin 7 := if p = 6 then 0 else p + 1

/-- The slots in the order they are sent, 45 down to 0 (rules R46, R90). -/
def slotOrder : List Nat := (List.range Config.nSlots).reverse

/-- `ROWPASS p` for the contents `slot` of TB (rules R46, R67, R87). -/
def rowPassEvents (P : Params) (slot : Nat → Byte) (p : Fin 7) : List LineEvent :=
  rowSelEvents (BitVec.ofNat 3 p) ++
    slotOrder.flatMap (fun c => charBitsEvents (glyphByte P (slot c) (passGlyphRow p))) ++ latchEvents

/-- `REFRESH` for the contents `slot` of TB (rules R67, R87). -/
def refreshEvents (P : Params) (slot : Nat → Byte) : List LineEvent := (List.finRange 7).flatMap (rowPassEvents P slot)

/-- The pseudo-instructions of rule R67, beside the plain trace statement `SET l, v` of rule R66. -/
inductive TraceStmt where
  | set (l : Line) (v : Level)
  | pulse (l : Line)
  | shift (v : Level)
  | rowSel (p : Fin 7)
  | latch
  | charBits (x : Byte)
  | rowPass (p : Fin 7)
  | refresh
  deriving DecidableEq, Repr

/-- What a trace statement expands to, for the contents of TB in force (rules R66, R67). -/
def TraceStmt.events (P : Params) (slot : Nat → Byte) : TraceStmt → List LineEvent
  | .set l v => [⟨l, v⟩]
  | .pulse l => pulseEvents l
  | .shift v => shiftEvents v
  | .rowSel p => rowSelEvents (BitVec.ofNat 3 p)
  | .latch => latchEvents
  | .charBits x => charBitsEvents x
  | .rowPass p => rowPassEvents P slot p
  | .refresh => refreshEvents P slot

/-! ## Codes and text (rules R55, R66, R69) -/

/-- A trace as its 4-bit codes (rule R55). -/
def traceCodes (t : List LineEvent) : List (BitVec 4) := t.map LineEvent.code

/-- The trace decoder: a sequence of codes as events; a code that spells no event is refused (rule R69). -/
def decodeTrace : List (BitVec 4) → Except DecodeError (List LineEvent)
  | [] => .ok []
  | w :: ws =>
    match lineEventOfCode w, decodeTrace ws with
    | .ok e, .ok es => .ok (e :: es)
    | .error e, _ => .error e
    | .ok _, .error e => .error e

/-- The name of a line in a trace statement (rules R54, R66). -/
def lineText : Line → String
  | .sclk => "SCLK"
  | .sdata => "SDATA"
  | .stb => "STB"
  | .rowa => "ROWA"
  | .rowb => "ROWB"
  | .rowc => "ROWC"

/-- The trace statement `SET <line>, <v>` (rule R66). -/
def eventText (e : LineEvent) : String := "SET " ++ lineText e.line ++ ", " ++ (if e.level then "1" else "0")

/-- The twelve events (rule R55). -/
def allEvents : List LineEvent :=
  [Line.sclk, .sdata, .stb, .rowa, .rowb, .rowc].flatMap fun l => [⟨l, false⟩, ⟨l, true⟩]

/-- The event a trace statement names (rule R66): the exact spelling of the rule. -/
def eventOfText (t : String) : Option LineEvent := allEvents.find? fun e => eventText e == t

end Sys2Proof.Machine
end

