-- ==== Sys2Proof/Safety.lean ====
section
/-! DEFINITION. What holds of every state a run can reach, in the terms the statements use: the ranges of the registers
(`10_state.md`), the phases that belong to a mode, and the bounds of the counters. -/

namespace Sys2Proof.Machine

/-- Every listed byte of the text buffer is at most 127 (rule R21). -/
def Memory.isAscii (m : Memory) : Bool := m.all fun cell => decide (cell.2.toNat ≤ 127)

/-- The state is in the given phase (rules R15, R62). -/
abbrev State.inPhase (s : State) (P : Phase) : Prop := s.phase = P.code

/-- The state is in the given mode (rules R28, R60). -/
abbrev State.inMode (s : State) (m : Mode) : Prop := s.mode = m.code

/-- A read phase (rules R109, R124, R132). -/
abbrev State.inReadPhase (s : State) : Prop := s.inPhase .rdL ∨ s.inPhase .rdV

/-- A phase of the loop body between two refreshes, or HALT (rules R101, R102, R108). -/
abbrev State.betweenRefreshes (s : State) : Prop :=
  s.inPhase .post ∨ s.inPhase .tick ∨ s.inReadPhase ∨ s.inPhase .halt

/-- A scroll mode (rule R131). -/
abbrev State.inScrollMode (s : State) : Prop := s.inMode .left ∨ s.inMode .up ∨ s.inMode .down

/-- The registers hold only values that are ever written, and the text buffer is in its form
(rules R15 to R18, R20, R21, R28, R36). -/
structure State.RegistersInRange (s : State) : Prop where
  phase : s.phase.toNat ≤ 12
  row : s.p.toNat ≤ 6
  slot : s.c.toNat ≤ 45
  bit : 2 ≤ s.b.toNat
  mode : s.mode.toNat ≤ 6
  buffer : s.tb.wf = true
  ascii : s.tb.isAscii = true

/-- How the sequencer stands to MODE and the flags (rules R24, R98, R101, R102, R107, R116, R117, R119, R123 to R126, R132). -/
structure State.SequencerAgrees (s : State) : Prop where
  lastRow : s.betweenRefreshes → s.p = 6
  readLeft : s.inPhase .rdL → s.inMode .left
  readLine : s.inPhase .rdV → s.inMode .up ∨ s.inMode .down
  tickHasCase : s.inPhase .tick → ¬ s.inMode .static
  fillOpen : s.inPhase .rdV → s.k.toNat ≤ 14 ∧ s.lineCtr.toNat ≤ 2
  frozenStops : s.frozen = true → ¬ s.inPhase .tick ∧ ¬ s.inReadPhase ∧ ¬ s.inPhase .halt
  frozenScrolls : s.frozen = true → s.inScrollMode ∧ cfgExitOnEof s.cfg = false
  haltScrolls : s.inPhase .halt → s.inScrollMode ∧ cfgExitOnEof s.cfg = true
  linesOnly : isLineScroll s.mode = false → s.lineCtr = 0 ∧ s.wrapPending = false
  fireworksOnly : ¬ s.inMode .fw → s.fwPhase = false
  notCounting : s.inMode .static → s.refreshCtr = 0
  tickFresh : s.inPhase .tick ∨ s.inReadPhase → s.refreshCtr = 0
  counting : s.refreshCtr = 0 ∨ s.refreshCtr < threshold s

/-- The run invariant: what every step of a started block keeps (the two groups above). -/
structure State.Inv (s : State) : Prop where
  started : s.started = true
  registers : s.RegistersInRange
  sequencer : s.SequencerAgrees

/-! ## The date text -/

/-- The line of 15 slots from `lo` on holds the field, with nothing but spaces before it and after it (rule R121). -/
def Memory.holdsPadded (m : Memory) (lo : Nat) (field : List Code7) : Prop :=
  ∃ before, before + field.length ≤ 15 ∧
    ∀ i, i < 15 → m.read (lo + i) =
      if i < before then 0x20 else ((field[i - before]?).map byteOfCode).getD 0x20

/-! ## Output lines -/

/-- The row-select lines carry the code of row `p` (rule R89). -/
abbrev LineLevels.carriesRow (lv : LineLevels) (p : BitVec 3) : Prop :=
  lv.rowa = some (p.getLsbD 0) ∧ lv.rowb = some (p.getLsbD 1) ∧ lv.rowc = some (p.getLsbD 2)

/-- The row of the pass before the one for `p` (rules R87, R166). -/
def rowBefore (p : BitVec 3) : BitVec 3 := if p = 0 then 6 else p - 1

/-- A pass is being serialized or latched: the row-select lines are settled (rule R165). -/
abbrev State.inPass (s : State) : Prop :=
  s.inPhase .data ∨ s.inPhase .clkH ∨ s.inPhase .clkL ∨ s.inPhase .stbH ∨ s.inPhase .stbL

/-- How the output lines stand to the sequencer (rules R99, R164 to R166, R168, R170): the clock and the strobe are high only
where their falling event comes next, they are low between refreshes, and the row-select lines carry the row of the pass,
with the row before it, or UNK in the first pass, until each of the three is written. -/
structure State.LinesAgree (s : State) : Prop where
  clockHigh : s.lv.sclk = some true ↔ s.inPhase .clkL
  strobeHigh : s.lv.stb = some true ↔ s.inPhase .stbL
  clockLow : s.inPhase .stbH ∨ s.inPhase .stbL ∨ s.betweenRefreshes → s.lv.sclk = some false
  strobeLow : s.betweenRefreshes → s.lv.stb = some false
  rowHeld : s.inPass ∨ s.betweenRefreshes → s.lv.carriesRow s.p
  atRowA : s.inPhase .rowA →
    s.lv.carriesRow (rowBefore s.p) ∨ (s.p = 0 ∧ s.lv.rowa = none ∧ s.lv.rowb = none ∧ s.lv.rowc = none)
  atRowB : s.inPhase .rowB →
    s.lv.rowa = some (s.p.getLsbD 0) ∧
      ((s.lv.rowb = some ((rowBefore s.p).getLsbD 1) ∧ s.lv.rowc = some ((rowBefore s.p).getLsbD 2)) ∨
        (s.p = 0 ∧ s.lv.rowb = none ∧ s.lv.rowc = none))
  atRowC : s.inPhase .rowC →
    s.lv.rowa = some (s.p.getLsbD 0) ∧ s.lv.rowb = some (s.p.getLsbD 1) ∧
      (s.lv.rowc = some ((rowBefore s.p).getLsbD 2) ∨ (s.p = 0 ∧ s.lv.rowc = none))

/-- Each line holds the level of its newest event, and is UNK while it has none (rules R14, R73). -/
abbrev State.LinesFollowTrace (s : State) : Prop :=
  ∀ l : Line, s.lv.get l = (s.trace.find? fun e => e.line == l).map LineEvent.level

/-! ## The lookahead slot -/

/-- What slot 45 holds in each mode (rules R120, R130, R136, R138). -/
structure State.LookaheadAgrees (s : State) : Prop where
  left : s.inMode .left → s.tb.read 45 = s.tb.read 44
  date : s.inMode .date → s.tb.read 45 = 0x20 ∨ s.tb.read 45 = 0x00
  others : ¬ s.inMode .left → ¬ s.inMode .date → s.tb.read 45 = 0x20

/-! ## A fresh run -/

/-- `t` is the state in which a run with the CFG word `w` and the MODE code `mode` starts, out of `s` (rules R118, R158, R159):
every element of the tuple of rule R13 at its reset value, the delays, the text, the parameters and the host's side as in `s`. -/
structure State.StartsRun (s : State) (w : BitVec 8) (mode : BitVec 3) (t : State) : Prop where
  fields : t =
    { s with
      cfg := w, mode := mode, started := true, trace := [], phase := 0, p := 0, c := 45, b := 7, k := 0, refreshCtr := 0,
      lineCtr := 0, wrapPending := false, fwPhase := false, frozen := false, tb := t.tb,
      lv := { sclk := none, sdata := none, stb := none, rowa := none, rowb := none, rowc := none } }
  text : ∀ i, t.tb.read i =
    if mode = 0 ∧ i < 45 then ((s.staticText[i]?).map fun x => if 127 < x.toNat then 0x00 else x).getD 0x20 else 0x20

/-! ## Outcomes -/

/-- The outcome with its next state, if any, changed by `f`. -/
def mapNext (f : State → State) : Host.Outcome State Fault Refusal → Host.Outcome State Fault Refusal
  | .next s => .next (f s)
  | .fault r => .fault r
  | .refused r => .refused r

end Sys2Proof.Machine
end

