-- ==== Sys2Proof/Certificates/Slice0/Obligations.lean ====
section
/-! DEFINITION. The statements about the block, from the numbered rules of the spec. -/

open Sys2Proof Sys2Proof.Machine

/-! ## Encodings -/

/-- Decoding the encoded word of a well-formed instruction gives it back, for every row of the opcode table
(`30_encoding.md` sections 1 to 5). -/
def Obligations.EncodedInstructionDecodesBack : Prop :=
  ∀ i : Instr, WellFormed i = true → decode (formatOf i) (encode i) = .ok i

/-- What a decoder accepts is well formed and encodes back to the bytes read, so no bit of an accepted word is dropped
(`30_encoding.md` sections 1 to 5). -/
def Obligations.DecodedWordEncodesBack : Prop :=
  ∀ (f : Format) (bytes : List Byte) (i : Instr), decode f bytes = .ok i →
    formatOf i = f ∧ WellFormed i = true ∧ encode i = bytes

/-- Rule R71: each of the 16 LINE_EVENT codes is an event or a refusal, each of the 512 symbols falls into exactly one class
(the function `classOf`), each of the 256 CFG words gives exactly one row, and each of the 16 PHASE codes is a micro-operation
or unused. -/
def Obligations.EveryWordOfEveryFormatHasOneReading : Prop :=
  (∀ w : BitVec 4,
    if w.toNat ≤ 11 then ∃ e : LineEvent, lineEventOfCode w = .ok e ∧ e.code = w
    else decodeLineEvent w = .error .spellsNoEvent) ∧
  (∀ x : BitVec 9, formatOf (decodeSymbol x) = .inputSymbol ∧ WellFormed (decodeSymbol x) = true) ∧
  (∀ w : BitVec 8, formatOf (decodeCfg w) = .cfg ∧ WellFormed (decodeCfg w) = true) ∧
  (∀ w : BitVec 4,
    if w.toNat ≤ 12 then ∃ P : Phase, P.code = w ∧ ∃ i, decodePhase w = .ok i ∧ formatOf i = .phase
    else decodePhase w = .error .unusedPhase)

/-- Rule R57: the class of a symbol by the values of its end bit and its byte. -/
def Obligations.SymbolClassFollowsTheByte : Prop :=
  ∀ x : BitVec 9,
    classOf x =
      if 256 ≤ x.toNat then .eof
      else if x.toNat = 10 then .lf
      else if x.toNat = 13 then .cr
      else if x.toNat = 12 then .ff
      else if 128 ≤ x.toNat then .high (BitVec.ofNat 8 x.toNat)
      else .normal (BitVec.ofNat 8 x.toNat)

/-- Rule R61, by the fields of rule R58: the fourteen rows in their order, each with its condition. -/
def Obligations.ModeDecodeFollowsTheFields : Prop :=
  ∀ (x date static : Bool) (scroll effect : BitVec 2) (v : Bool),
    decodeCfg (cfgWord x date static scroll effect v) =
      if scroll = 3 then .modeRefuseBadScroll x date static effect v
      else if effect = 3 then .modeRefuseBadEffect x date static scroll v
      else if static && date then .modeRefuseStaticDate x scroll effect v
      else if static && effect == 1 then .modeRefuseStaticSnow x scroll v
      else if static && effect == 2 then .modeRefuseStaticFw x scroll v
      else if date && effect == 1 then .modeRefuseDateSnow x scroll v
      else if date && effect == 2 then .modeRefuseDateFw x scroll v
      else if static then .modeStatic x scroll v
      else if date then .modeDate x scroll v
      else if effect = 1 then .modeSnow x scroll v
      else if effect = 2 then .modeFw x scroll v
      else if scroll = 0 then .modeLeft x v
      else if scroll = 1 then .modeUp x v
      else .modeDown x v

/-- A few words written out from the tables of `30_encoding.md` decode to the rows they stand for. The words of a symbol, 9 bits, stand
in two bytes with the low byte first, which is the model's choice (`notes/assumptions/6.md`): the spec stores no symbol. -/
def Obligations.WordsOfTheTablesDecode : Prop :=
  decode .lineEvent [0b00000111] = .ok (.setRowa true) ∧
  decode .lineEvent [0b00001011] = .ok (.setRowc true) ∧
  decode .inputSymbol [0b00001010, 0b00000000] = .ok .symLf ∧
  decode .inputSymbol [0b10001010, 0b00000000] = .ok (.symHigh 0b0001010) ∧
  decode .inputSymbol [0b00000000, 0b00000001] = .ok (.symEof 0) ∧
  decode .cfg [0b00001001] = .ok (.modeUp true false) ∧
  decode .cfg [0b01000000] = .ok (.modeFw false 0 false) ∧
  decode .cfg [0b00111000] = .ok (.modeRefuseBadScroll false false false 1 false) ∧
  decode .phase [0b00001011] = .ok .phaseRdV

/-! ## Steps -/

/-- A step of a started block executes the micro-operation its phase selects; before the start it executes the row of the mode
decode (rules R8, R62, R103). That the start sequence is one step of the model is the model's (`notes/assumptions/4.md`). -/
def Obligations.StepRunsTheDecodedInstruction : Prop :=
  ∀ s : State,
    (s.started = true → ∀ i, decodePhase s.phase = .ok i → step s = exec i s) ∧
    (s.started = false → step s = exec (decodeCfg s.cfg) s)

/-- Rule R65's PHASE line: a state that holds a code 13 to 15 has no step; the model's name for it is `stuckPhase`. -/
def Obligations.UnusedPhaseCodesAreStuck : Prop :=
  ∀ s : State, s.started = true → 13 ≤ s.phase.toNat → step s = .fault .stuckPhase

/-- In a read phase the step consumes the symbol at the IN port, and is the symbol's own row (rules R42, R109 to R115). -/
def Obligations.ReadPhaseRunsTheRowOfTheSymbol : Prop :=
  ∀ (s : State) (x : BitVec 9) (rest : List (BitVec 9)), s.started = true → s.inScript = x :: rest →
    (s.phase = 10 ∨ s.phase = 11) →
    step s = exec (decodeSymbol x) s ∧ ∃ t, step s = .next t ∧ t.inScript = rest

/-- While the host offers no symbol in a read phase, nothing changes: no line event, and LV, TB, the counters and the flags are as
they were (rule R109). That the wait is a step to the same state, not the absence of a step, is the model's
(`notes/assumptions/2.md`). -/
def Obligations.ReadPhaseWaitsWithoutSymbol : Prop :=
  ∀ s : State, s.started = true → (s.phase = 10 ∨ s.phase = 11) → s.inScript = [] → step s = .next s

/-- Rule R8: a step of a started block emits at most one line event, and the lines change by that event alone. -/
def Obligations.StepEmitsAtMostOneLineEvent : Prop :=
  ∀ s t : State, s.started = true → step s = .next t →
    (t.trace = s.trace ∧ t.lv = s.lv) ∨
    (∃ e : LineEvent, s.phase.toNat ≤ 7 ∧ t.trace = e :: s.trace ∧ t.lv.get e.line = some e.level ∧
      ∀ l, l ≠ e.line → t.lv.get l = s.lv.get l)

/-- Rule R162's bound: each line event is followed by at least T_SETTLE, which is above 0, and a step without an event takes no
minimum time. That time is counted only as this lower bound is the model's (`notes/assumptions/5.md`). -/
def Obligations.EachLineEventCostsTheSettlingTime : Prop :=
  ∀ s t : State, s.started = true → step s = .next t →
    (s.phase.toNat ≤ 7 → leastTime t = leastTime s + tSettle s.params ∧ leastTime s < leastTime t) ∧
    (7 < s.phase.toNat → leastTime t = leastTime s)

/-! ## Line driver -/

/-- The line-driver row of a line. -/
def lineRow : Line → Level → Instr
  | .sclk, v => .setSclk v
  | .sdata, v => .setSdata v
  | .stb, v => .setStb v
  | .rowa, v => .setRowa v
  | .rowb, v => .setRowb v
  | .rowc, v => .setRowc v

/-- Rules R73, R80: each of the six operations drives its one line to the level given, emits the one event of its code, and changes
nothing else; where the line has the level already, the lines stay as they are and the event is emitted all the same, with its own
settling wait. That time is counted only as a lower bound is the model's (`notes/assumptions/5.md`). -/
def Obligations.LineOperationDrivesItsOneLine : Prop :=
  ∀ (l : Line) (v : Level) (s : State), ∃ t, exec (lineRow l v) s = .next t ∧
    t.lv.get l = some v ∧ (∀ l', l' ≠ l → t.lv.get l' = s.lv.get l') ∧
    t.trace = ⟨l, v⟩ :: s.trace ∧ leastTime t = leastTime s + tSettle s.params ∧ decode .lineEvent [(LineEvent.code ⟨l, v⟩).setWidth 8] = .ok (lineRow l v) ∧
    t = { s with lv := t.lv, trace := t.trace } ∧ (∀ i, t.tb.read i = s.tb.read i) ∧ (s.lv.get l = some v → t.lv = s.lv)

/-! ## Font and rows -/

/-- Rules R81 to R83 and R85: GLYPH_ROW is the stored byte of the normalized code, and a code above 127 has the glyph of code 0. -/
def Obligations.GlyphRowIsTheFontByteOfTheNormalizedCode : Prop :=
  ∀ (P : Params) (code : Byte) (row : Nat), row ≤ 6 →
    glyphRow P code row = P.font[7 * (if 127 < code.toNat then 0 else code.toNat) + row]? ∧
    (glyphRow P code row).isSome = true ∧
    (127 < code.toNat → glyphRow P code row = glyphRow P 0 row)

/-! ## Scan phases -/

/-- Rules R91 to R93: ROW_A, ROW_B and ROW_C drive p[0], p[1] and p[2] and go on; ROW_C starts at slot 45, bit 7. Nothing else
changes. -/
def Obligations.RowPhasesDriveTheRowSelectBits : Prop :=
  ∀ s : State,
    exec .phaseRowA s = .next { s with
      lv := { s.lv with rowa := some (s.p.getLsbD 0) }, trace := ⟨.rowa, s.p.getLsbD 0⟩ :: s.trace, phase := 1 } ∧
    exec .phaseRowB s = .next { s with
      lv := { s.lv with rowb := some (s.p.getLsbD 1) }, trace := ⟨.rowb, s.p.getLsbD 1⟩ :: s.trace, phase := 2 } ∧
    exec .phaseRowC s = .next { s with
      lv := { s.lv with rowc := some (s.p.getLsbD 2) }, trace := ⟨.rowc, s.p.getLsbD 2⟩ :: s.trace, c := 45, b := 7,
      phase := 3 }

/-- Rule R94: DATA drives bit `b` of the glyph row g(p) of the slot's code, looked up in FONT after normalization, and changes
nothing else. -/
def Obligations.DataDrivesThePixelOfItsSlot : Prop :=
  ∀ (s : State) (p : Fin 7), s.p = BitVec.ofNat 3 p.val → s.c.toNat ≤ 45 →
    exec .phaseData s = .next { s with
      lv := { s.lv with
        sdata := some ((glyphByte s.params (s.tb.read s.c.toNat) (if p = 6 then 0 else p + 1)).getLsbD s.b.toNat) },
      trace := ⟨.sdata, (glyphByte s.params (s.tb.read s.c.toNat) (if p = 6 then 0 else p + 1)).getLsbD s.b.toNat⟩ :: s.trace,
      phase := 4 }

/-- DATA and TICK stop exactly in states that no run reaches: DATA on a slot above 45 (rules R17, R36) or the row 7 (rules R16, R86),
values that are never written; TICK in the MODE code 7, which is never written (rule R60), or in STATIC, where no TICK is started
(rules R101, R102). That they stop there, and by which names, is the model's (`notes/assumptions/9.md`). -/
def Obligations.DataAndTickStopOnlyInStatesNoRunReaches : Prop :=
  ∀ s : State,
    (45 < s.c.toNat → exec .phaseData s = .fault .noSuchSlot) ∧
    (s.c.toNat ≤ 45 → s.p = 7 → exec .phaseData s = .refused .noSuchGlyphRow) ∧
    (s.c.toNat ≤ 45 → s.p ≠ 7 → ∃ t, exec .phaseData s = .next t) ∧
    (s.mode = 0 ∨ s.mode = 7 → exec .phaseTick s = .fault .stuckTick) ∧
    (s.mode ≠ 0 → s.mode ≠ 7 → ∃ t, exec .phaseTick s = .next t)

/-- Rules R95, R96: CLK_H raises the shift clock; CLK_L lowers it and goes to the next bit, the next slot, or the strobe. Nothing
else changes. -/
def Obligations.ClockPhasesPulseAndAdvance : Prop :=
  ∀ s : State,
    exec .phaseClkH s = .next { s with lv := { s.lv with sclk := some true }, trace := ⟨.sclk, true⟩ :: s.trace, phase := 5 } ∧
    (2 < s.b.toNat → exec .phaseClkL s = .next { s with
      lv := { s.lv with sclk := some false }, trace := ⟨.sclk, false⟩ :: s.trace, b := BitVec.ofNat 3 (s.b.toNat - 1), phase := 3 }) ∧
    (s.b.toNat ≤ 2 → 0 < s.c.toNat → exec .phaseClkL s = .next { s with
      lv := { s.lv with sclk := some false }, trace := ⟨.sclk, false⟩ :: s.trace, c := BitVec.ofNat 6 (s.c.toNat - 1), b := 7,
      phase := 3 }) ∧
    (s.b.toNat ≤ 2 → s.c.toNat = 0 → exec .phaseClkL s = .next { s with
      lv := { s.lv with sclk := some false }, trace := ⟨.sclk, false⟩ :: s.trace, phase := 6 })

/-- Rules R97, R98: STB_H raises the strobe; STB_L lowers it and goes to the next row, or to POST after row 6. Nothing else
changes. -/
def Obligations.StrobePhasesLatchAndAdvance : Prop :=
  ∀ s : State,
    exec .phaseStbH s = .next { s with lv := { s.lv with stb := some true }, trace := ⟨.stb, true⟩ :: s.trace, phase := 7 } ∧
    (s.p.toNat < 6 → exec .phaseStbL s = .next { s with
      lv := { s.lv with stb := some false }, trace := ⟨.stb, false⟩ :: s.trace, p := BitVec.ofNat 3 (s.p.toNat + 1), phase := 0 }) ∧
    (6 ≤ s.p.toNat → exec .phaseStbL s = .next { s with
      lv := { s.lv with stb := some false }, trace := ⟨.stb, false⟩ :: s.trace, phase := 8 })

/-! ## The refresh -/

/-- From ROW_A with p = 0, 5831 steps emit exactly the events of the loop of rule R87 for the contents of TB, in order, and reach POST
with p = 6; the lines are then as rule R99 says, and nothing outside the lines and the sequencer has changed. That the phases give
that loop is the spec's own derivation, "[derived: from R91 to R98]". -/
def Obligations.RefreshEmitsTheTraceOfTheBuffer : Prop :=
  ∀ s : State, s.started = true → s.phase = 0 → s.p = 0 →
    ∃ t : State, Host.Core.run Sys2Proof.core 5831 s = .next t ∧
      t.trace = (refreshEvents s.params s.tb.read).reverse ++ s.trace ∧
      t = { s with
        trace := t.trace, phase := 8, p := 6, c := 0, b := 2,
        lv := { sclk := some false, sdata := some ((glyphByte s.params (s.tb.read 0) 0).getLsbD 2), stb := some false,
                rowa := some false, rowb := some true, rowc := some true } }

/-- Rule R99's counts, whatever the contents of TB and FONT. -/
def Obligations.RefreshHasTheSameCountsForAllContents : Prop :=
  ∀ (P : Params) (slot : Nat → Byte),
    (refreshEvents P slot).length = 5831 ∧
    ((refreshEvents P slot).countP fun e => e == ⟨.sclk, true⟩) = 1932 ∧
    ((refreshEvents P slot).countP fun e => e.line == .sclk) = 3864 ∧
    ((refreshEvents P slot).countP fun e => e.line == .sdata) = 1932 ∧
    ((refreshEvents P slot).countP fun e => e == ⟨.stb, true⟩) = 7 ∧
    ((refreshEvents P slot).countP fun e => e == ⟨.stb, false⟩) = 7 ∧
    ((refreshEvents P slot).countP fun e => e.line == .rowa || e.line == .rowb || e.line == .rowc) = 21

/-- Rule R100: two refreshes have the same line identifiers in the same order, and the same levels on every line but SDATA. -/
def Obligations.OnlyDataLevelsDependOnTheContents : Prop :=
  ∀ (P P' : Params) (slot slot' : Nat → Byte),
    (refreshEvents P slot).map (fun e => (e.line, if e.line = .sdata then false else e.level)) =
      (refreshEvents P' slot').map (fun e => (e.line, if e.line = .sdata then false else e.level))

/-- Rule R46: the j-th data bit of the pass for row p. -/
def Obligations.DataBitsGoOutSlot45FirstHighBitFirst : Prop :=
  ∀ (P : Params) (slot : Nat → Byte) (p : Fin 7) (j : Nat), j ≤ 275 →
    ((rowPassEvents P slot p).filter fun e => e.line == .sdata)[j]? =
      some ⟨.sdata, (glyphByte P (slot (45 - j / 6)) (if p = 6 then 0 else p + 1)).getLsbD (7 - j % 6)⟩

/-- Rule R85: a code above 127 has the glyph rows of code 0, and so the trace of a refresh does not change when TB bytes above 127
are replaced by 0: all of them, or any set of slots. -/
def Obligations.RefreshTraceSeesOnlyNormalizedBytes : Prop :=
  ∀ P : Params,
    (∀ (c : Byte) (r : Nat), r ≤ 6 → 127 < c.toNat → glyphRow P c r = glyphRow P 0 r) ∧
    ∀ (slot : Nat → Byte) (replaced : Nat → Bool),
      refreshEvents P (fun i => if replaced i ∧ 127 < (slot i).toNat then 0 else slot i) = refreshEvents P slot

/-! ## POST and HALT -/

/-- Rules R101 and R105: POST counts the refresh and starts a tick when the exact threshold is reached; it counts nothing in STATIC or
when frozen. Nothing else changes. -/
def Obligations.PostCountsTheRefreshAndGatesTheTick : Prop :=
  ∀ (s : State) (T : Nat),
    T = s.scrollDelay.toNat + (if (s.mode = 5 ∨ s.mode = 6) ∧ s.lineCtr = 3 then s.threeLineDelay.toNat else 0) →
    ((s.mode = 0 ∨ s.frozen = true) → exec .phasePost s = .next { s with p := 0, phase := 0 }) ∧
    (s.mode ≠ 0 → s.frozen = false → T ≤ s.refreshCtr + 1 →
      exec .phasePost s = .next { s with refreshCtr := 0, phase := 9 }) ∧
    (s.mode ≠ 0 → s.frozen = false → s.refreshCtr + 1 < T →
      exec .phasePost s = .next { s with refreshCtr := s.refreshCtr + 1, p := 0, phase := 0 })

/-- Rule R108: HALT has no step; the model refuses it by the name `halted`. -/
def Obligations.HaltHasNoStep : Prop :=
  ∀ s : State, exec .phaseHalt s = .refused .halted ∧ (s.started = true → s.phase = 12 → step s = .refused .halted)

/-- Rule R108: HALT is entered only by a read of end-of-input with EXIT_ON_EOF = 1. -/
def Obligations.HaltIsEnteredOnlyByEndOfInput : Prop :=
  ∀ s t : State, s.started = true → step s = .next t → t.phase = 12 →
    (s.phase = 10 ∨ s.phase = 11) ∧ s.cfg.getLsbD 0 = true ∧ ∃ x rest, s.inScript = x :: rest ∧ 256 ≤ x.toNat

/-! ## Ticks -/

/-- Rules R120 and R121: the DATE tick samples the clock once and writes the 45 bytes of DATE_TEXT and the terminator. Of what the wall
clock shows then, the top line holds the date as day/month/year, the middle line the time as HH:MM:SS, the bottom line the weekday
name, each padded with spaces. Nothing else changes. The reading and the layout are any (rule R3: DATE_TEXT is an argument); that the
numbers are decimal, and that a separator too long for its line is cut, is the model's (`notes/assumptions/15.md`, `20.md`). -/
def Obligations.DateTickRewritesTheBuffer : Prop :=
  ∀ (s : State) (r : ClockReading) (L : DateLayout), s.tb.wf = true → s.mode = 1 →
    (r, L) = readingAndLayout s.params (nextInstant s) →
    ∃ t, exec .phaseTick s = .next t ∧
      (∃ sep sep' year : List Code7,
        t.tb.holdsPadded 0
          ((if 10 ≤ r.day.val then [L.digits[r.day.val / 10 % 10]] else L.padDay.toList) ++ [L.digits[r.day.val % 10]] ++ sep ++
            (if 10 ≤ r.month.val then [L.digits[r.month.val / 10 % 10]] else L.padMonth.toList) ++ [L.digits[r.month.val % 10]] ++
            sep' ++ year) ∧
        1 ≤ year.length ∧ (∀ n, L.yearDigitsLessOne = some n → year.length = n.val + 1) ∧
        (∀ i, i < year.length → year[i]? = some L.digits[r.year / 10 ^ (year.length - 1 - i) % 10]) ∧
        (L.yearDigitsLessOne = none → r.year < 10 ^ 11 → r.year < 10 ^ year.length ∧ (r.year ≠ 0 → 10 ^ (year.length - 1) ≤ r.year)) ∧
        sep <+: L.daySeparator.codes ∧ sep' <+: L.monthSeparator.codes ∧
        (L.daySeparator.codes.length + L.monthSeparator.codes.length + year.length ≤ 11 →
          sep = L.daySeparator.codes ∧ sep' = L.monthSeparator.codes)) ∧
      t.tb.holdsPadded 15
        [L.digits[r.hour.val / 10], L.digits[r.hour.val % 10], L.colon, L.digits[r.minute.val / 10], L.digits[r.minute.val % 10],
          L.colon, L.digits[r.second.val / 10], L.digits[r.second.val % 10]] ∧
      t.tb.holdsPadded 30 (L.weekdays[r.weekday].1 :: L.weekdays[r.weekday].2.codes) ∧
      (∀ i, (hi : i < 45) → t.tb.read i = byteOfCode (dateText s.params (nextInstant s))[i]) ∧
      t.tb.read 45 = 0x00 ∧ (∀ i, 45 < i → t.tb.read i = s.tb.read i) ∧
      t = { s with
        tb := t.tb, p := 0, phase := 0, clockScript := s.clockScript.tail, clockCtr := s.clockCtr + 1 }

/-- Rule R122: two DATE ticks whose samples fall in the same second leave the same buffer, whatever it held before; after every DATE
tick the slots 0 to 44 are the 45 bytes of DATE_TEXT and slot 45 is 0x00. -/
def Obligations.DateTickIsDeterminedByTheSecond : Prop :=
  ∀ s s' t t' : State, s.tb.wf = true → s'.tb.wf = true → s.mode = 1 → s'.mode = 1 → s.params = s'.params →
    (nextInstant s).second = (nextInstant s').second →
    exec .phaseTick s = .next t → exec .phaseTick s' = .next t' →
    t.tb = t'.tb ∧ t.tb.read 45 = 0x00 ∧
      ∀ i, (hi : i < 45) → t.tb.read i = byteOfCode (dateText s.params (nextInstant s))[i]

/-- Rules R136, R137 and R141: the Snow tick. Each position of the top line is blank exactly when twice its draw is above RAND_MAX;
exactly 15 draws are taken. Nothing else changes. -/
def Obligations.SnowTickLetsTheTopLineFall : Prop :=
  ∀ s : State, s.tb.wf = true → s.mode = 2 →
    ∃ t, exec .phaseTick s = .next t ∧
      (∀ i, i < 15 →
        t.tb.read i = if 2 * nthDraw s i > randMax s.params then 0x20 else byteOfCode s.params.snowChar) ∧
      (∀ i, i < 15 → t.tb.read (15 + i) = s.tb.read i) ∧
      (∀ i, (hi : i < 15) → t.tb.read (30 + i) = byteOfCode s.params.landscapeSnow[i]) ∧
      (∀ i, 45 ≤ i → t.tb.read i = s.tb.read i) ∧
      t = { s with tb := t.tb, p := 0, phase := 0, drawScript := s.drawScript.drop 15, drawCtr := s.drawCtr + 15 }

/-- Rules R138, R139 and R141: the Fireworks tick in the source's phase 1 and in its phase 2. Nothing else changes; phase 2 takes no
draw. -/
def Obligations.FireworksTickAlternatesTracersAndBursts : Prop :=
  ∀ s : State, s.tb.wf = true → s.mode = 3 →
    ∃ t, exec .phaseTick s = .next t ∧
      (∀ i, (hi : i < 15) → t.tb.read (30 + i) = byteOfCode s.params.landscapeFw[i]) ∧
      (∀ i, 45 ≤ i → t.tb.read i = s.tb.read i) ∧
      (s.fwPhase = false →
        (∀ i, i < 15 → t.tb.read i = s.tb.read i) ∧
        (∀ i, i < 15 →
          t.tb.read (15 + i) = if 16 * nthDraw s i > randMax s.params then 0x20 else byteOfCode s.params.tracerChar) ∧
        t = { s with
          tb := t.tb, fwPhase := true, p := 0, phase := 0, drawScript := s.drawScript.drop 15, drawCtr := s.drawCtr + 15 }) ∧
      (s.fwPhase = true →
        (∀ i, i < 15 →
          t.tb.read i =
            if s.tb.read (15 + i) = byteOfCode s.params.tracerChar then byteOfCode s.params.burstChar else 0x20) ∧
        (∀ i, i < 15 → t.tb.read (15 + i) = 0x20) ∧
        t = { s with tb := t.tb, fwPhase := false, p := 0, phase := 0 })

/-- Rules R123, R125 and R126: the ticks that go on in a read phase. LEFT changes the phase only; UP and DOWN wrap the line counter,
move two lines, clear the new one to 0x00 and set k to 0. Nothing else changes. -/
def Obligations.ScrollTicksMoveTheLines : Prop :=
  ∀ s : State, s.tb.wf = true →
    (s.mode = 4 → exec .phaseTick s = .next { s with phase := 10 }) ∧
    (s.mode = 5 → ∃ t, exec .phaseTick s = .next t ∧
      (∀ i, i < 30 → t.tb.read i = s.tb.read (i + 15)) ∧ (∀ i, 30 ≤ i → i < 45 → t.tb.read i = 0x00) ∧
      (∀ i, 45 ≤ i → t.tb.read i = s.tb.read i) ∧
      t = { s with tb := t.tb, lineCtr := if s.lineCtr = 3 then 0 else s.lineCtr, k := 0, phase := 11 }) ∧
    (s.mode = 6 → ∃ t, exec .phaseTick s = .next t ∧
      (∀ i, 15 ≤ i → i < 45 → t.tb.read i = s.tb.read (i - 15)) ∧ (∀ i, i < 15 → t.tb.read i = 0x00) ∧
      (∀ i, 45 ≤ i → t.tb.read i = s.tb.read i) ∧
      t = { s with tb := t.tb, lineCtr := if s.lineCtr = 3 then 0 else s.lineCtr, k := 0, phase := 11 })

/-! ## Reads -/

/-- Rules R117 and R124: RD_L on each class of symbol. Nothing else changes. -/
def Obligations.ScrollLeftReadActsOnTheSymbol : Prop :=
  ∀ (s : State) (x : BitVec 9) (rest : List (BitVec 9)), s.tb.wf = true → s.inScript = x :: rest →
    (256 ≤ x.toNat → s.cfg.getLsbD 0 = true → exec .phaseRdL s = .next { s with inScript := rest, phase := 12 }) ∧
    (256 ≤ x.toNat → s.cfg.getLsbD 0 = false →
      exec .phaseRdL s = .next { s with inScript := rest, frozen := true, p := 0, phase := 0 }) ∧
    (x.toNat = 10 ∨ x.toNat = 13 → exec .phaseRdL s = .next { s with inScript := rest, phase := 10 }) ∧
    (x.toNat < 256 → x.toNat ≠ 10 → x.toNat ≠ 13 → ∃ t, exec .phaseRdL s = .next t ∧
      (∀ i, i < 44 → t.tb.read i = s.tb.read (i + 1)) ∧
      t.tb.read 44 = BitVec.ofNat 8 (if 127 < x.toNat then 0 else x.toNat) ∧
      t.tb.read 45 = BitVec.ofNat 8 (if 127 < x.toNat then 0 else x.toNat) ∧
      (∀ i, 45 < i → t.tb.read i = s.tb.read i) ∧
      t = { s with inScript := rest, tb := t.tb, p := 0, phase := 0 })

/-- Rules R117, R127, R132 and R133: RD_V on each class of symbol, in a fill that is open (k ≤ 14, rule R127). Nothing else changes.
The line counter of an open fill is at most 2, and then one more line is counted without wrapping. -/
def Obligations.LineFillReadActsOnTheSymbol : Prop :=
  ∀ (s : State) (x : BitVec 9) (rest : List (BitVec 9)) (base : Nat), s.tb.wf = true → s.inScript = x :: rest →
    s.k.toNat ≤ 14 → base = (if s.mode = 5 then 30 else 0) →
    (s.lineCtr.toNat ≤ 2 → (s.lineCtr + 1).toNat = s.lineCtr.toNat + 1) ∧
    (256 ≤ x.toNat → s.cfg.getLsbD 0 = true → exec .phaseRdV s = .next { s with inScript := rest, phase := 12 }) ∧
    (256 ≤ x.toNat → s.cfg.getLsbD 0 = false →
      exec .phaseRdV s = .next { s with inScript := rest, frozen := true, p := 0, phase := 0 }) ∧
    (x.toNat = 13 → exec .phaseRdV s = .next { s with inScript := rest, phase := 11 }) ∧
    (x.toNat = 10 → s.k = 0 → s.wrapPending = true →
      exec .phaseRdV s = .next { s with inScript := rest, wrapPending := false, phase := 11 }) ∧
    (x.toNat = 10 → ¬ (s.k = 0 ∧ s.wrapPending = true) →
      exec .phaseRdV s =
        .next { s with inScript := rest, wrapPending := false, lineCtr := s.lineCtr + 1, p := 0, phase := 0 }) ∧
    (x.toNat = 12 → ∃ t, exec .phaseRdV s = .next t ∧
      (∀ i, i < 45 → t.tb.read i = 0x20) ∧ (∀ i, 45 ≤ i → t.tb.read i = s.tb.read i) ∧
      t = { s with inScript := rest, tb := t.tb, wrapPending := false, lineCtr := 0, p := 0, phase := 0 }) ∧
    (x.toNat < 256 → x.toNat ≠ 10 → x.toNat ≠ 12 → x.toNat ≠ 13 → ∃ t, exec .phaseRdV s = .next t ∧
      t.tb.read (base + s.k.toNat) = BitVec.ofNat 8 (if 127 < x.toNat then 0 else x.toNat) ∧
      (∀ i, i ≠ base + s.k.toNat → t.tb.read i = s.tb.read i) ∧
      (s.k.toNat < 14 →
        t = { s with inScript := rest, tb := t.tb, wrapPending := false, k := s.k + 1, phase := 11 }) ∧
      (s.k.toNat = 14 →
        t = { s with
          inScript := rest, tb := t.tb, wrapPending := true, k := 15, lineCtr := s.lineCtr + 1, p := 0, phase := 0 }))

/-- A row of the symbol table is the read step on its symbol: in RD_L and in RD_V it has the next state that the phase has with that
symbol at the IN port (rules R110 to R115, R72). -/
def Obligations.SymbolRowsAreTheReadOfTheirSymbol : Prop :=
  ∀ (i : Instr) (s : State), formatOf i = .inputSymbol → WellFormed i = true →
    (s.phase = 10 → ∃ t, exec i s = .next t ∧
      exec .phaseRdL { s with inScript := (encodeWord i).setWidth 9 :: s.inScript.tail } = .next t) ∧
    (s.phase = 11 → ∃ t, exec i s = .next t ∧
      exec .phaseRdV { s with inScript := (encodeWord i).setWidth 9 :: s.inScript.tail } = .next t)

/-- Outside the read phases the host has no move that offers a symbol, and none is on offer (rules R134, R155, R156); a symbol row then
has no effect to model. The refusal and its name are the model's (`notes/assumptions/8.md`). -/
def Obligations.SymbolRowsAreRefusedOutsideTheReadPhases : Prop :=
  ∀ s : State, s.phase ≠ 10 → s.phase ≠ 11 →
    (∀ i : Instr, formatOf i = .inputSymbol → exec i s = .refused .noReadInProgress) ∧ s.offered = none ∧
    ∀ x : BitVec 9, s.afterMove (.offer x) = none ∧ s.offer x = s

/-- Rules R127, R128 and R132: fifteen ordinary characters fill their line left to right in fifteen steps, and the fill ends there with
wrap_pending set and one more line counted. -/
def Obligations.FifteenCharactersFillALine : Prop :=
  ∀ (s : State) (L : List Byte) (rest : List (BitVec 9)) (base : Nat), s.started = true → s.phase = 11 → s.k = 0 →
    s.tb.wf = true → base = (if s.mode = 5 then 30 else 0) → L.length = 15 →
    (∀ x ∈ L, x.toNat ≤ 127 ∧ x.toNat ≠ 10 ∧ x.toNat ≠ 12 ∧ x.toNat ≠ 13) → s.inScript = symbolsOf L ++ rest →
    ∃ t : State, Host.Core.run Sys2Proof.core 15 s = .next t ∧
      (∀ i, (hi : i < L.length) → t.tb.read (base + i) = L[i]) ∧
      (∀ i, (i < base ∨ base + 15 ≤ i) → t.tb.read i = s.tb.read i) ∧
      t = { s with
        inScript := rest, tb := t.tb, k := 15, wrapPending := true, lineCtr := s.lineCtr + 1, p := 0, phase := 0 }

/-! ## Start and configuration -/

/-- Rules R103, R118, R158 and R159: each mode row starts a run in its mode with every element at its reset value, and in STATIC
with the text loaded. -/
def Obligations.ModeRowsStartARunInTheirMode : Prop :=
  ∀ (s : State) (x v : Bool) (scroll : BitVec 2),
    (∃ t, exec (.modeStatic x scroll v) s = .next t ∧ s.StartsRun (cfgWord x false true scroll 0 v) 0 t) ∧
    (∃ t, exec (.modeDate x scroll v) s = .next t ∧ s.StartsRun (cfgWord x true false scroll 0 v) 1 t) ∧
    (∃ t, exec (.modeSnow x scroll v) s = .next t ∧ s.StartsRun (cfgWord x false false scroll 1 v) 2 t) ∧
    (∃ t, exec (.modeFw x scroll v) s = .next t ∧ s.StartsRun (cfgWord x false false scroll 2 v) 3 t) ∧
    (∃ t, exec (.modeLeft x v) s = .next t ∧ s.StartsRun (cfgWord x false false 0 0 v) 4 t) ∧
    (∃ t, exec (.modeUp x v) s = .next t ∧ s.StartsRun (cfgWord x false false 1 0 v) 5 t) ∧
    (∃ t, exec (.modeDown x v) s = .next t ∧ s.StartsRun (cfgWord x false false 2 0 v) 6 t)

/-- Rule R104: a refused configuration is refused by name, and the block never starts: a run of a scenario that has one is that
refusal, with no line event and no step. The draws of a scenario are in 0 .. RAND_MAX (rule R68). -/
def Obligations.RefusedConfigurationsNeverStart : Prop :=
  (∀ (P : Params) (sc : Scenario) (n steps : Nat) (r : Refusal),
    sc.wf P = true → exec (decodeCfg sc.cfg) (sc.initial P) = .refused r → sc.run P (n + 1) (steps + 1) = .refused r) ∧
  ∀ (s : State) (x d t v : Bool) (m e : BitVec 2),
    exec (.modeRefuseBadScroll x d t e v) s = .refused .cfgBadScroll ∧
    exec (.modeRefuseBadEffect x d t m v) s = .refused .cfgBadEffect ∧
    exec (.modeRefuseStaticDate x m e v) s = .refused .cfgStaticDate ∧
    exec (.modeRefuseStaticSnow x m v) s = .refused .cfgStaticEffect ∧
    exec (.modeRefuseStaticFw x m v) s = .refused .cfgStaticEffect ∧
    exec (.modeRefuseDateSnow x m v) s = .refused .cfgDateEffect ∧
    exec (.modeRefuseDateFw x m v) s = .refused .cfgDateEffect

/-- Rule R158: the reset values, with MODE decoded from CFG at the defaults of the configuration registers. -/
def Obligations.ResetHoldsTheSpecValues : Prop :=
  State.reset.lv = { sclk := none, sdata := none, stb := none, rowa := none, rowb := none, rowc := none } ∧
  State.reset.phase = 0 ∧ State.reset.p = 0 ∧ State.reset.c = 45 ∧ State.reset.b = 7 ∧ State.reset.k = 0 ∧
  (∀ i, State.reset.tb.read i = 0x20) ∧ State.reset.refreshCtr = 0 ∧ State.reset.lineCtr = 0 ∧
  State.reset.wrapPending = false ∧ State.reset.fwPhase = false ∧ State.reset.frozen = false ∧
  decodeCfg State.reset.cfg = .modeLeft false false ∧ State.reset.mode = 4 ∧ State.reset.cfg = 0 ∧
  State.reset.scrollDelay = 40 ∧ State.reset.threeLineDelay = 0 ∧ State.reset.staticText = []

/-- The reset state is what the start sequence makes of a block that the host has not configured (rules R29 to R33, R159). That the
start sequence is one step, and that nothing is configured at reset, is the model's (`notes/assumptions/4.md`). -/
def Obligations.ResetIsTheStartOnTheDefaults : Prop :=
  step (State.beforeStart Config.params) = .next State.reset ∧
  (State.beforeStart Config.params).StartsRun 0x00 4 State.reset

/-- Rule R160: the first step after the start is the row-select A event of row pass 0. -/
def Obligations.FirstStepIsRowSelectAOfPassZero : Prop :=
  ∀ (s t u : State) (w : BitVec 8) (mode : BitVec 3), s.StartsRun w mode t → step t = .next u →
    u.trace = [⟨.rowa, false⟩] ∧ u.phase = 1 ∧ u.p = 0

/-! ## Frames over all steps -/

/-- Rules R33, R40 and R103: after the start no step changes the configuration or MODE, and the host has no write path to them; nor
does a step change the parameters (rule R22). Whatever move the host makes, when it has it, nothing of the block changes but what the
move hands over: the configuration before the start, or what is at the port (rules R155, R156). -/
def Obligations.ConfigurationIsFixedFromTheStartOn : Prop :=
  (∀ (s : State) (cfg : BitVec 8) (d1 d2 : BitVec 32) (text : List Byte), s.started = true →
    s.configure cfg d1 d2 text = s ∧ s.afterMove (.configure cfg d1 d2 text) = none) ∧
  (∀ (s t : State) (m : HostMove), s.afterMove m = some t →
    t = { s with
      cfg := t.cfg, scrollDelay := t.scrollDelay, threeLineDelay := t.threeLineDelay, staticText := t.staticText,
      inScript := t.inScript, clockScript := t.clockScript, drawScript := t.drawScript } ∧
    (s.started = true → t.cfg = s.cfg ∧ t.scrollDelay = s.scrollDelay ∧ t.threeLineDelay = s.threeLineDelay ∧
      t.staticText = s.staticText) ∧
    (t.inScript ≠ s.inScript → s.phase = 10 ∨ s.phase = 11) ∧
    (t.clockScript ≠ s.clockScript → s.phase = 9 ∧ s.mode = 1) ∧
    (t.drawScript ≠ s.drawScript → s.phase = 9 ∧ (s.mode = 2 ∨ s.mode = 3 ∧ s.fwPhase = false) ∧
      ∃ r, r ≤ randMax s.params ∧ t.drawScript = s.drawScript ++ [r])) ∧
  ∀ s t : State, s.started = true → step s = .next t →
    t.cfg = s.cfg ∧ t.mode = s.mode ∧ t.scrollDelay = s.scrollDelay ∧ t.threeLineDelay = s.threeLineDelay ∧
      t.staticText = s.staticText ∧ t.params = s.params ∧ t.started = true

/-- Rules R23 to R27: who writes each counter and flag. refresh_ctr: POST. line_ctr: the UP and DOWN ticks and RD_V. wrap_pending: RD_V.
fw_phase: the FW tick. frozen: a read of end-of-input with EXIT_ON_EOF = 0, and only to 1. k: the UP and DOWN ticks and RD_V
(rule R19). -/
def Obligations.CountersAreWrittenOnlyByTheirWriters : Prop :=
  ∀ s t : State, s.started = true → step s = .next t →
    (t.refreshCtr ≠ s.refreshCtr → s.phase = 8) ∧
    (t.lineCtr ≠ s.lineCtr → (s.phase = 9 ∧ (s.mode = 5 ∨ s.mode = 6)) ∨ s.phase = 11) ∧
    (t.wrapPending ≠ s.wrapPending → s.phase = 11) ∧
    (t.fwPhase ≠ s.fwPhase → s.phase = 9 ∧ s.mode = 3) ∧
    (t.frozen ≠ s.frozen → t.frozen = true ∧ (s.phase = 10 ∨ s.phase = 11) ∧ s.cfg.getLsbD 0 = false ∧
      ∃ x rest, s.inScript = x :: rest ∧ 256 ≤ x.toNat) ∧
    (t.k ≠ s.k → (s.phase = 9 ∧ (s.mode = 5 ∨ s.mode = 6)) ∨ s.phase = 11)

/-- Rules R38, R48 and R49: TB changes only in TICK, RD_L and RD_V, and every slot it changes is one that rule R38 lets the tick or the
read of the mode write. -/
def Obligations.BufferChangesOnlyBetweenRefreshes : Prop :=
  ∀ s t : State, s.started = true → s.tb.wf = true → step s = .next t → ∀ i, t.tb.read i ≠ s.tb.read i →
    (s.phase = 9 ∧ s.mode = 1 ∧ i ≤ 45) ∨
    (s.phase = 9 ∧ (s.mode = 2 ∨ s.mode = 3 ∨ s.mode = 5 ∨ s.mode = 6) ∧ i ≤ 44) ∨
    (s.phase = 10 ∧ i ≤ 45) ∨ (s.phase = 11 ∧ (i ≤ 44 ∨ s.k = 15))

/-- Rule R153: VERBOSE has no effect: a step commutes with a change of CFG[7]. -/
def Obligations.VerboseHasNoEffect : Prop :=
  ∀ s : State, s.started = true →
    step { s with cfg := s.cfg ^^^ 0x80 } = mapNext (fun t => { t with cfg := t.cfg ^^^ 0x80 }) (step s)

/-! ## Memory and ports -/

/-- Rule R50: every read of TB returns the last value written to that slot; a write leaves the other slots alone and keeps the
canonical form. -/
def Obligations.SlotReadsReturnTheLastWrite : Prop :=
  ∀ (m : Memory) (a : Nat) (v : Byte), m.wf = true → a ≤ 45 →
    (m.write a v).read a = v ∧ (∀ i, i ≠ a → (m.write a v).read i = m.read i) ∧ (m.write a v).wf = true

/-- Rule R44: a draw is in 0 .. RAND_MAX, and the port always answers: with the draw given outright, if there is one in that range. -/
def Obligations.DrawsAreInRange : Prop :=
  ∀ (s : State) (n : Nat),
    nthDraw s n ≤ randMax s.params ∧ (draw s).1 = nthDraw s 0 ∧ 1 ≤ randMax s.params ∧
      ∀ r, s.drawScript[n]? = some r → r ≤ randMax s.params → nthDraw s n = r

/-! ## Invariants -/

/-- The reset state meets the run invariant, and the ones about the lines, the trace and the lookahead slot. -/
def Obligations.ResetMeetsTheInvariants : Prop :=
  State.reset.Inv ∧ State.reset.LinesAgree ∧ State.reset.LinesFollowTrace ∧ State.reset.LookaheadAgrees

/-- Every start meets the run invariant and the other ones, whatever the configuration it accepts (rules R103, R158, R159). -/
def Obligations.EveryStartMeetsTheInvariants : Prop :=
  ∀ s t : State, s.started = false → step s = .next t →
    t.Inv ∧ t.LinesAgree ∧ t.LinesFollowTrace ∧ t.LookaheadAgrees

/-- Every step keeps the run invariant: the registers hold only values that are ever written (rules R15 to R18, R20, R21, R28), and the
sequencer agrees with MODE, the flags and the counters (rules R23 to R27, R98 to R102, R107, R116, R117, R119, R132). -/
def Obligations.StepKeepsTheRunInvariant : Prop :=
  ∀ s t : State, s.Inv → step s = .next t → t.Inv

/-- Rules R143 and R145: in every state that meets the run invariant, a step gives a next state, but in HALT, the one final state. -/
def Obligations.InvariantStatesStepUnlessHalted : Prop :=
  ∀ s : State, s.Inv → if s.phase = 12 then step s = .refused .halted else ∃ t, step s = .next t

/-- Every step keeps the agreement of the lines with the sequencer (rules R99, R164 to R166, R168, R170). -/
def Obligations.StepKeepsTheLinesInAgreement : Prop :=
  ∀ s t : State, s.Inv → s.LinesAgree → step s = .next t → t.LinesAgree

/-- Row-select code 7 never stands on the lines, not even between two of the three writes (rules R89, R166). -/
def Obligations.RowSelectCodeSevenNeverAppears : Prop :=
  ∀ s : State, s.Inv → s.LinesAgree → ¬ (s.lv.rowa = some true ∧ s.lv.rowb = some true ∧ s.lv.rowc = some true)

/-- Rules R75, R164 and R165: shift data changes only while the shift clock is not high, the row-select lines only while neither the
clock nor the strobe is high, and the strobe only while the clock is low. -/
def Obligations.LinesChangeOnlyWhileTheClockIsNotHigh : Prop :=
  ∀ s t : State, s.Inv → s.LinesAgree → step s = .next t →
    (∀ v, t.trace = ⟨.sdata, v⟩ :: s.trace → s.lv.sclk ≠ some true ∧ t.lv.sclk ≠ some true) ∧
    (∀ v, t.trace = ⟨.rowa, v⟩ :: s.trace ∨ t.trace = ⟨.rowb, v⟩ :: s.trace ∨ t.trace = ⟨.rowc, v⟩ :: s.trace →
      s.lv.sclk ≠ some true ∧ s.lv.stb ≠ some true) ∧
    (∀ v, t.trace = ⟨.stb, v⟩ :: s.trace → s.lv.sclk = some false)

/-- Rule R14: each line holds the level of its newest event and is UNK while it has none; every step of a started block keeps it so. -/
def Obligations.StepKeepsLinesAsTheTraceSays : Prop :=
  ∀ s t : State, s.started = true → s.LinesFollowTrace → step s = .next t → t.LinesFollowTrace

/-- Rule R130, and rules R120, R136 and R138 on slot 45: every step keeps what the lookahead slot holds in each mode. -/
def Obligations.StepKeepsTheLookaheadSlot : Prop :=
  ∀ s t : State, s.Inv → s.LookaheadAgrees → step s = .next t → t.LookaheadAgrees

/-! ## Runs -/

/-- Rules R116 and R117: once frozen, the block steps forever, reads no symbol, never changes TB and stays frozen. -/
def Obligations.FrozenBlockRefreshesForeverAndReadsNothing : Prop :=
  ∀ (s : State) (n : Nat), s.Inv → s.frozen = true →
    ∃ t : State, Host.Core.run Sys2Proof.core n s = .next t ∧ t.frozen = true ∧ t.inScript = s.inScript ∧ t.tb = s.tb ∧
      t.refreshCtr = s.refreshCtr

/-- Rules R134 and R140: in STATIC, DATE, SNOW and FW the block steps forever, consumes no symbol and is never frozen. -/
def Obligations.ModesWithoutInputNeverReadOrHalt : Prop :=
  ∀ (s : State) (n : Nat), s.Inv → s.mode = 0 ∨ s.mode = 1 ∨ s.mode = 2 ∨ s.mode = 3 →
    ∃ t : State, Host.Core.run Sys2Proof.core n s = .next t ∧ t.inScript = s.inScript ∧ t.frozen = false ∧ t.mode = s.mode ∧
      t.phase ≠ 10 ∧ t.phase ≠ 11 ∧ t.phase ≠ 12

/-- Rule R119: in STATIC, TB never changes, no tick is started, refresh_ctr stays 0, no input is read, and the block never halts. -/
def Obligations.StaticTextNeverChanges : Prop :=
  ∀ (s : State) (n : Nat), s.Inv → s.mode = 0 →
    ∃ t : State, Host.Core.run Sys2Proof.core n s = .next t ∧ t.tb = s.tb ∧ t.refreshCtr = 0 ∧ t.inScript = s.inScript ∧
      t.phase ≠ 9 ∧ t.phase ≠ 12
end

