-- ==== Sys2Proof/Laws/Memory.lean ====
section
/-! SUPPORT. The text buffer: what a read gives after a write and after a fill, and that every operation keeps the canonical form and
the bound of rule R21. -/

namespace Sys2Proof.Machine

namespace Memory

@[simp] theorem read_nil (a : Nat) : read [] a = blank := rfl

/-! ## Reads -/

/-- A write is read back at its slot and leaves every other slot alone, whatever list it is made on that rises from `lo`. -/
theorem wfFrom_read_lt {m : Memory} {lo a : Nat} (h : wfFrom lo m = true) (ha : a < lo) : read m a = blank := by
  induction m generalizing lo with
  | nil => rfl
  | cons cell m ih =>
    obtain ⟨a', v'⟩ := cell
    simp only [wfFrom, Bool.and_eq_true, decide_eq_true_eq] at h
    have : a ≠ a' := by omega
    simp only [read, this, if_false]
    exact ih h.2 (by omega)

theorem read_write_from {m : Memory} {lo : Nat} (h : wfFrom lo m = true) (a : Nat) (v : Byte) (i : Nat) :
    read (write m a v) i = if i = a then v else read m i := by
  induction m generalizing lo with
  | nil =>
    by_cases hv : v = blank <;> by_cases hi : i = a <;> simp [write, read, hv, hi]
  | cons cell m ih =>
    obtain ⟨a', v'⟩ := cell
    simp only [wfFrom, Bool.and_eq_true, decide_eq_true_eq] at h
    obtain ⟨⟨⟨h1, h2⟩, h3⟩, h4⟩ := h
    have hlow : ∀ j, j < a' + 1 → read m j = blank := fun j hj => wfFrom_read_lt h4 hj
    rcases Nat.lt_trichotomy a a' with hlt | heq | hgt
    · by_cases hv : v = blank
      · by_cases hi : i = a
        · have : i ≠ a' := by omega
          simp [write, hlt, hv, read, hi, hlow a (by omega), show a ≠ a' by omega]
        · simp [write, hlt, hv, hi]
      · by_cases hi : i = a <;> simp [write, hlt, hv, read, hi]
    · subst heq
      by_cases hv : v = blank
      · by_cases hi : i = a
        · simp [write, hv, hi, hlow a (by omega)]
        · simp [write, hv, hi, read]
      · by_cases hi : i = a <;> simp [write, hv, read, hi]
    · have hn : ¬ a < a' := by omega
      have hne : a ≠ a' := by omega
      by_cases hi : i = a'
      · have : i ≠ a := by omega
        simp [write, hn, hne, read, hi, show a' ≠ a by omega]
      · simp [write, hn, hne, read, hi, ih h4]

/-- A read after a write (rule R50): the value written at its slot, the old value elsewhere. -/
theorem read_write {m : Memory} (h : m.wf = true) (a : Nat) (v : Byte) (i : Nat) :
    (m.write a v).read i = if i = a then v else m.read i := read_write_from h a v i

/-! ## The canonical form -/

theorem wfFrom_mono {m : Memory} {lo lo' : Nat} (h : wfFrom lo m = true) (hl : lo' ≤ lo) : wfFrom lo' m = true := by
  cases m with
  | nil => rfl
  | cons cell m =>
    obtain ⟨a', v'⟩ := cell
    simp only [wfFrom, Bool.and_eq_true, decide_eq_true_eq] at h ⊢
    exact ⟨⟨⟨by omega, h.1.1.2⟩, h.1.2⟩, h.2⟩

theorem wfFrom_write {m : Memory} {lo : Nat} (h : wfFrom lo m = true) {a : Nat} (hlo : lo ≤ a) (ha : a < Config.nSlots)
    (v : Byte) : wfFrom lo (write m a v) = true := by
  induction m generalizing lo with
  | nil => by_cases hv : v = blank <;> simp [write, hv, wfFrom, hlo, ha]
  | cons cell m ih =>
    obtain ⟨a', v'⟩ := cell
    simp only [wfFrom, Bool.and_eq_true, decide_eq_true_eq] at h
    obtain ⟨⟨⟨h1, h2⟩, h3⟩, h4⟩ := h
    rcases Nat.lt_trichotomy a a' with hlt | heq | hgt
    · by_cases hv : v = blank
      · simp only [write, hlt, hv, if_true, wfFrom, Bool.and_eq_true, decide_eq_true_eq]
        exact ⟨⟨⟨h1, h2⟩, h3⟩, h4⟩
      · simp only [write, hlt, hv, if_true, if_false, wfFrom, Bool.and_eq_true, decide_eq_true_eq, bne_iff_ne]
        exact ⟨⟨⟨hlo, ha⟩, hv⟩, ⟨⟨by omega, h2⟩, by simpa using h3⟩, h4⟩
    · subst heq
      by_cases hv : v = blank
      · simp only [write, Nat.lt_irrefl, if_false, if_true, hv]
        exact wfFrom_mono h4 (by omega)
      · simp only [write, Nat.lt_irrefl, if_false, if_true, hv, wfFrom, Bool.and_eq_true, decide_eq_true_eq, bne_iff_ne]
        exact ⟨⟨⟨hlo, ha⟩, hv⟩, h4⟩
    · have hn : ¬ a < a' := by omega
      have hne : a ≠ a' := by omega
      simp only [write, hn, hne, if_false, wfFrom, Bool.and_eq_true, decide_eq_true_eq]
      exact ⟨⟨⟨h1, h2⟩, h3⟩, ih h4 (by omega)⟩

/-- A write into a slot of TB keeps the canonical form. -/
theorem wf_write {m : Memory} (h : m.wf = true) {a : Nat} (ha : a < Config.nSlots) (v : Byte) : (m.write a v).wf = true :=
  wfFrom_write h (Nat.zero_le a) ha v

theorem wf_nil : wf [] = true := rfl

theorem fill_zero (m : Memory) (lo : Nat) (f : Nat → Byte) : m.fill lo f 0 = m := by unfold fill; rfl

theorem fill_succ (m : Memory) (lo : Nat) (f : Nat → Byte) (n : Nat) :
    m.fill lo f (n + 1) = (m.fill lo f n).write (lo + n) (f n) := by unfold fill; rfl

/-- A fill of slots of TB keeps the canonical form. -/
theorem wf_fill {m : Memory} (h : m.wf = true) (lo : Nat) (f : Nat → Byte) (n : Nat) (hn : lo + n ≤ Config.nSlots) :
    (m.fill lo f n).wf = true := by
  induction n with
  | zero => rwa [fill_zero]
  | succ n ih => rw [fill_succ]; exact wf_write (ih (by omega)) (by omega) _

/-- A read after a fill: the new value in the slots filled, the old value elsewhere. -/
theorem read_fill {m : Memory} (h : m.wf = true) (lo : Nat) (f : Nat → Byte) (n : Nat) (hn : lo + n ≤ Config.nSlots)
    (i : Nat) : (m.fill lo f n).read i = if lo ≤ i ∧ i < lo + n then f (i - lo) else m.read i := by
  induction n with
  | zero => simp [fill_zero, show ¬ (lo ≤ i ∧ i < lo) by omega]
  | succ n ih =>
    have hwf : (m.fill lo f n).wf = true := wf_fill h lo f n (by omega)
    rw [fill_succ, read_write hwf, ih (by omega)]
    by_cases hi : i = lo + n
    · subst hi; simp
    · by_cases hr : lo ≤ i ∧ i < lo + n
      · simp [hi, hr, show lo ≤ i ∧ i < lo + (n + 1) by omega]
      · simp [hi, hr, show ¬ (lo ≤ i ∧ i < lo + (n + 1)) by omega]

/-- Outside TB nothing is listed. -/
theorem wfFrom_read_ge {m : Memory} {lo i : Nat} (h : wfFrom lo m = true) (hi : Config.nSlots ≤ i) : read m i = blank := by
  induction m generalizing lo with
  | nil => rfl
  | cons cell m ih =>
    obtain ⟨a', v'⟩ := cell
    simp only [wfFrom, Bool.and_eq_true, decide_eq_true_eq] at h
    have : i ≠ a' := by have := h.1.1.2; omega
    simp only [read, this, if_false]
    exact ih h.2

/-! ## Equal contents are equal lists -/

theorem wfFrom_ext {m m' : Memory} {lo : Nat} (h : wfFrom lo m = true) (h' : wfFrom lo m' = true)
    (hr : ∀ i, read m i = read m' i) : m = m' := by
  induction m generalizing lo m' with
  | nil =>
    cases m' with
    | nil => rfl
    | cons cell m' =>
      obtain ⟨a, v⟩ := cell
      simp only [wfFrom, Bool.and_eq_true, decide_eq_true_eq, bne_iff_ne] at h'
      have := hr a
      simp [read] at this
      exact absurd this.symm h'.1.2
  | cons cell m ih =>
    obtain ⟨a, v⟩ := cell
    simp only [wfFrom, Bool.and_eq_true, decide_eq_true_eq, bne_iff_ne] at h
    cases m' with
    | nil =>
      have := hr a
      simp [read] at this
      exact absurd this h.1.2
    | cons cell' m' =>
      obtain ⟨a', v'⟩ := cell'
      simp only [wfFrom, Bool.and_eq_true, decide_eq_true_eq, bne_iff_ne] at h'
      have hlow := fun j (hj : j < a + 1) => wfFrom_read_lt h.2 hj
      have hlow' := fun j (hj : j < a' + 1) => wfFrom_read_lt h'.2 hj
      rcases Nat.lt_trichotomy a a' with hlt | heq | hgt
      · have := hr a
        simp [read, show a ≠ a' by omega, hlow' a (by omega)] at this
        exact absurd this h.1.2
      · subst heq
        have hv : v = v' := by simpa [read] using hr a
        subst hv
        congr 1
        refine ih h.2 h'.2 fun i => ?_
        by_cases hi : i = a
        · subst hi; rw [hlow i (by omega), hlow' i (by omega)]
        · simpa [read, hi] using hr i
      · have := hr a'
        simp [read, show a' ≠ a by omega, hlow a' (by omega)] at this
        exact absurd this.symm h'.1.2

/-- Two buffers in canonical form that read alike are the same list. -/
theorem wf_ext {m m' : Memory} (h : m.wf = true) (h' : m'.wf = true) (hr : ∀ i, m.read i = m'.read i) : m = m' :=
  wfFrom_ext h h' hr

/-! ## The bound of rule R21 -/

theorem isAscii_nil : isAscii [] = true := rfl

theorem blank_le : blank.toNat ≤ 127 := by decide

theorem isAscii_cons (a : Nat) (v : Byte) (m : Memory) :
    isAscii ((a, v) :: m) = (decide (v.toNat ≤ 127) && isAscii m) := rfl

/-- Every read of a buffer within the bound is within the bound (rule R21). -/
theorem read_le {m : Memory} (h : m.isAscii = true) (i : Nat) : (m.read i).toNat ≤ 127 := by
  induction m with
  | nil => exact blank_le
  | cons cell m ih =>
    obtain ⟨a, v⟩ := cell
    simp only [isAscii_cons, Bool.and_eq_true, decide_eq_true_eq] at h
    by_cases hi : i = a
    · simp [read, hi, h.1]
    · simpa [read, hi] using ih h.2

theorem isAscii_write {m : Memory} (h : m.isAscii = true) (a : Nat) {v : Byte} (hv : v.toNat ≤ 127) :
    (m.write a v).isAscii = true := by
  induction m with
  | nil => by_cases hb : v = blank <;> simp [write, hb, isAscii_nil, isAscii_cons, hv]
  | cons cell m ih =>
    obtain ⟨a', v'⟩ := cell
    simp only [isAscii_cons, Bool.and_eq_true, decide_eq_true_eq] at h
    rw [write]
    split
    · split <;> simp [isAscii_cons, h, hv]
    · split
      · split <;> simp [isAscii_cons, h, hv]
      · simp [isAscii_cons, h.1, ih h.2]

theorem isAscii_fill {m : Memory} (h : m.isAscii = true) (lo : Nat) {f : Nat → Byte} (hf : ∀ i, (f i).toNat ≤ 127) (n : Nat) :
    (m.fill lo f n).isAscii = true := by
  induction n with
  | zero => rwa [fill_zero]
  | succ n ih => rw [fill_succ]; exact isAscii_write ih _ (hf n)

end Memory

end Sys2Proof.Machine
end

