-- ==== Sys2Proof/Laws/State.lean ====
section
/-! SUPPORT. One lemma per field of State for each shared update, so that no proof unfolds a record update. -/

namespace Sys2Proof.Machine

/-! ## Output lines -/

@[simp] theorem LineLevels.get_set (lv : LineLevels) (l l' : Line) (v : Level) :
    (lv.set l v).get l' = if l' = l then some v else lv.get l' := by
  cases l <;> cases l' <;> rfl

theorem LineLevels.ext_get {lv lv' : LineLevels} (h : ∀ l, lv.get l = lv'.get l) : lv = lv' := by
  cases lv; cases lv'
  simp only [LineLevels.mk.injEq]
  exact ⟨h .sclk, h .sdata, h .stb, h .rowa, h .rowb, h .rowc⟩

/-! ## setLine -/

@[simp] theorem setLine_lv (l : Line) (v : Level) (s : State) : (setLine l v s).lv = s.lv.set l v := rfl
@[simp] theorem setLine_phase (l : Line) (v : Level) (s : State) : (setLine l v s).phase = s.phase := rfl
@[simp] theorem setLine_p (l : Line) (v : Level) (s : State) : (setLine l v s).p = s.p := rfl
@[simp] theorem setLine_c (l : Line) (v : Level) (s : State) : (setLine l v s).c = s.c := rfl
@[simp] theorem setLine_b (l : Line) (v : Level) (s : State) : (setLine l v s).b = s.b := rfl
@[simp] theorem setLine_k (l : Line) (v : Level) (s : State) : (setLine l v s).k = s.k := rfl
@[simp] theorem setLine_tb (l : Line) (v : Level) (s : State) : (setLine l v s).tb = s.tb := rfl
@[simp] theorem setLine_refreshCtr (l : Line) (v : Level) (s : State) : (setLine l v s).refreshCtr = s.refreshCtr := rfl
@[simp] theorem setLine_lineCtr (l : Line) (v : Level) (s : State) : (setLine l v s).lineCtr = s.lineCtr := rfl
@[simp] theorem setLine_wrapPending (l : Line) (v : Level) (s : State) : (setLine l v s).wrapPending = s.wrapPending := rfl
@[simp] theorem setLine_fwPhase (l : Line) (v : Level) (s : State) : (setLine l v s).fwPhase = s.fwPhase := rfl
@[simp] theorem setLine_frozen (l : Line) (v : Level) (s : State) : (setLine l v s).frozen = s.frozen := rfl
@[simp] theorem setLine_mode (l : Line) (v : Level) (s : State) : (setLine l v s).mode = s.mode := rfl
@[simp] theorem setLine_cfg (l : Line) (v : Level) (s : State) : (setLine l v s).cfg = s.cfg := rfl
@[simp] theorem setLine_scrollDelay (l : Line) (v : Level) (s : State) : (setLine l v s).scrollDelay = s.scrollDelay := rfl
@[simp] theorem setLine_threeLineDelay (l : Line) (v : Level) (s : State) : (setLine l v s).threeLineDelay = s.threeLineDelay := rfl
@[simp] theorem setLine_staticText (l : Line) (v : Level) (s : State) : (setLine l v s).staticText = s.staticText := rfl
@[simp] theorem setLine_started (l : Line) (v : Level) (s : State) : (setLine l v s).started = s.started := rfl
@[simp] theorem setLine_params (l : Line) (v : Level) (s : State) : (setLine l v s).params = s.params := rfl
@[simp] theorem setLine_trace (l : Line) (v : Level) (s : State) : (setLine l v s).trace = ⟨l, v⟩ :: s.trace := rfl
@[simp] theorem setLine_inScript (l : Line) (v : Level) (s : State) : (setLine l v s).inScript = s.inScript := rfl
@[simp] theorem setLine_clockScript (l : Line) (v : Level) (s : State) : (setLine l v s).clockScript = s.clockScript := rfl
@[simp] theorem setLine_clockCtr (l : Line) (v : Level) (s : State) : (setLine l v s).clockCtr = s.clockCtr := rfl
@[simp] theorem setLine_drawScript (l : Line) (v : Level) (s : State) : (setLine l v s).drawScript = s.drawScript := rfl
@[simp] theorem setLine_drawCtr (l : Line) (v : Level) (s : State) : (setLine l v s).drawCtr = s.drawCtr := rfl

/-! ## goto -/

@[simp] theorem goto_lv (P : Phase) (s : State) : (goto P s).lv = s.lv := rfl
@[simp] theorem goto_phase (P : Phase) (s : State) : (goto P s).phase = P.code := rfl
@[simp] theorem goto_p (P : Phase) (s : State) : (goto P s).p = s.p := rfl
@[simp] theorem goto_c (P : Phase) (s : State) : (goto P s).c = s.c := rfl
@[simp] theorem goto_b (P : Phase) (s : State) : (goto P s).b = s.b := rfl
@[simp] theorem goto_k (P : Phase) (s : State) : (goto P s).k = s.k := rfl
@[simp] theorem goto_tb (P : Phase) (s : State) : (goto P s).tb = s.tb := rfl
@[simp] theorem goto_refreshCtr (P : Phase) (s : State) : (goto P s).refreshCtr = s.refreshCtr := rfl
@[simp] theorem goto_lineCtr (P : Phase) (s : State) : (goto P s).lineCtr = s.lineCtr := rfl
@[simp] theorem goto_wrapPending (P : Phase) (s : State) : (goto P s).wrapPending = s.wrapPending := rfl
@[simp] theorem goto_fwPhase (P : Phase) (s : State) : (goto P s).fwPhase = s.fwPhase := rfl
@[simp] theorem goto_frozen (P : Phase) (s : State) : (goto P s).frozen = s.frozen := rfl
@[simp] theorem goto_mode (P : Phase) (s : State) : (goto P s).mode = s.mode := rfl
@[simp] theorem goto_cfg (P : Phase) (s : State) : (goto P s).cfg = s.cfg := rfl
@[simp] theorem goto_scrollDelay (P : Phase) (s : State) : (goto P s).scrollDelay = s.scrollDelay := rfl
@[simp] theorem goto_threeLineDelay (P : Phase) (s : State) : (goto P s).threeLineDelay = s.threeLineDelay := rfl
@[simp] theorem goto_staticText (P : Phase) (s : State) : (goto P s).staticText = s.staticText := rfl
@[simp] theorem goto_started (P : Phase) (s : State) : (goto P s).started = s.started := rfl
@[simp] theorem goto_params (P : Phase) (s : State) : (goto P s).params = s.params := rfl
@[simp] theorem goto_trace (P : Phase) (s : State) : (goto P s).trace = s.trace := rfl
@[simp] theorem goto_inScript (P : Phase) (s : State) : (goto P s).inScript = s.inScript := rfl
@[simp] theorem goto_clockScript (P : Phase) (s : State) : (goto P s).clockScript = s.clockScript := rfl
@[simp] theorem goto_clockCtr (P : Phase) (s : State) : (goto P s).clockCtr = s.clockCtr := rfl
@[simp] theorem goto_drawScript (P : Phase) (s : State) : (goto P s).drawScript = s.drawScript := rfl
@[simp] theorem goto_drawCtr (P : Phase) (s : State) : (goto P s).drawCtr = s.drawCtr := rfl

/-! ## endTick -/

@[simp] theorem endTick_lv (s : State) : (endTick s).lv = s.lv := rfl
@[simp] theorem endTick_phase (s : State) : (endTick s).phase = Phase.rowA.code := rfl
@[simp] theorem endTick_p (s : State) : (endTick s).p = 0 := rfl
@[simp] theorem endTick_c (s : State) : (endTick s).c = s.c := rfl
@[simp] theorem endTick_b (s : State) : (endTick s).b = s.b := rfl
@[simp] theorem endTick_k (s : State) : (endTick s).k = s.k := rfl
@[simp] theorem endTick_tb (s : State) : (endTick s).tb = s.tb := rfl
@[simp] theorem endTick_refreshCtr (s : State) : (endTick s).refreshCtr = s.refreshCtr := rfl
@[simp] theorem endTick_lineCtr (s : State) : (endTick s).lineCtr = s.lineCtr := rfl
@[simp] theorem endTick_wrapPending (s : State) : (endTick s).wrapPending = s.wrapPending := rfl
@[simp] theorem endTick_fwPhase (s : State) : (endTick s).fwPhase = s.fwPhase := rfl
@[simp] theorem endTick_frozen (s : State) : (endTick s).frozen = s.frozen := rfl
@[simp] theorem endTick_mode (s : State) : (endTick s).mode = s.mode := rfl
@[simp] theorem endTick_cfg (s : State) : (endTick s).cfg = s.cfg := rfl
@[simp] theorem endTick_scrollDelay (s : State) : (endTick s).scrollDelay = s.scrollDelay := rfl
@[simp] theorem endTick_threeLineDelay (s : State) : (endTick s).threeLineDelay = s.threeLineDelay := rfl
@[simp] theorem endTick_staticText (s : State) : (endTick s).staticText = s.staticText := rfl
@[simp] theorem endTick_started (s : State) : (endTick s).started = s.started := rfl
@[simp] theorem endTick_params (s : State) : (endTick s).params = s.params := rfl
@[simp] theorem endTick_trace (s : State) : (endTick s).trace = s.trace := rfl
@[simp] theorem endTick_inScript (s : State) : (endTick s).inScript = s.inScript := rfl
@[simp] theorem endTick_clockScript (s : State) : (endTick s).clockScript = s.clockScript := rfl
@[simp] theorem endTick_clockCtr (s : State) : (endTick s).clockCtr = s.clockCtr := rfl
@[simp] theorem endTick_drawScript (s : State) : (endTick s).drawScript = s.drawScript := rfl
@[simp] theorem endTick_drawCtr (s : State) : (endTick s).drawCtr = s.drawCtr := rfl

/-! ## consumeSymbol -/

@[simp] theorem consumeSymbol_lv (s : State) : (consumeSymbol s).lv = s.lv := rfl
@[simp] theorem consumeSymbol_phase (s : State) : (consumeSymbol s).phase = s.phase := rfl
@[simp] theorem consumeSymbol_p (s : State) : (consumeSymbol s).p = s.p := rfl
@[simp] theorem consumeSymbol_c (s : State) : (consumeSymbol s).c = s.c := rfl
@[simp] theorem consumeSymbol_b (s : State) : (consumeSymbol s).b = s.b := rfl
@[simp] theorem consumeSymbol_k (s : State) : (consumeSymbol s).k = s.k := rfl
@[simp] theorem consumeSymbol_tb (s : State) : (consumeSymbol s).tb = s.tb := rfl
@[simp] theorem consumeSymbol_refreshCtr (s : State) : (consumeSymbol s).refreshCtr = s.refreshCtr := rfl
@[simp] theorem consumeSymbol_lineCtr (s : State) : (consumeSymbol s).lineCtr = s.lineCtr := rfl
@[simp] theorem consumeSymbol_wrapPending (s : State) : (consumeSymbol s).wrapPending = s.wrapPending := rfl
@[simp] theorem consumeSymbol_fwPhase (s : State) : (consumeSymbol s).fwPhase = s.fwPhase := rfl
@[simp] theorem consumeSymbol_frozen (s : State) : (consumeSymbol s).frozen = s.frozen := rfl
@[simp] theorem consumeSymbol_mode (s : State) : (consumeSymbol s).mode = s.mode := rfl
@[simp] theorem consumeSymbol_cfg (s : State) : (consumeSymbol s).cfg = s.cfg := rfl
@[simp] theorem consumeSymbol_scrollDelay (s : State) : (consumeSymbol s).scrollDelay = s.scrollDelay := rfl
@[simp] theorem consumeSymbol_threeLineDelay (s : State) : (consumeSymbol s).threeLineDelay = s.threeLineDelay := rfl
@[simp] theorem consumeSymbol_staticText (s : State) : (consumeSymbol s).staticText = s.staticText := rfl
@[simp] theorem consumeSymbol_started (s : State) : (consumeSymbol s).started = s.started := rfl
@[simp] theorem consumeSymbol_params (s : State) : (consumeSymbol s).params = s.params := rfl
@[simp] theorem consumeSymbol_trace (s : State) : (consumeSymbol s).trace = s.trace := rfl
@[simp] theorem consumeSymbol_inScript (s : State) : (consumeSymbol s).inScript = s.inScript.tail := rfl
@[simp] theorem consumeSymbol_clockScript (s : State) : (consumeSymbol s).clockScript = s.clockScript := rfl
@[simp] theorem consumeSymbol_clockCtr (s : State) : (consumeSymbol s).clockCtr = s.clockCtr := rfl
@[simp] theorem consumeSymbol_drawScript (s : State) : (consumeSymbol s).drawScript = s.drawScript := rfl
@[simp] theorem consumeSymbol_drawCtr (s : State) : (consumeSymbol s).drawCtr = s.drawCtr := rfl

/-! ## countLine -/

@[simp] theorem countLine_lv (s : State) : (countLine s).lv = s.lv := rfl
@[simp] theorem countLine_phase (s : State) : (countLine s).phase = s.phase := rfl
@[simp] theorem countLine_p (s : State) : (countLine s).p = s.p := rfl
@[simp] theorem countLine_c (s : State) : (countLine s).c = s.c := rfl
@[simp] theorem countLine_b (s : State) : (countLine s).b = s.b := rfl
@[simp] theorem countLine_k (s : State) : (countLine s).k = s.k := rfl
@[simp] theorem countLine_tb (s : State) : (countLine s).tb = s.tb := rfl
@[simp] theorem countLine_refreshCtr (s : State) : (countLine s).refreshCtr = s.refreshCtr := rfl
@[simp] theorem countLine_lineCtr (s : State) : (countLine s).lineCtr = s.lineCtr + 1 := rfl
@[simp] theorem countLine_wrapPending (s : State) : (countLine s).wrapPending = s.wrapPending := rfl
@[simp] theorem countLine_fwPhase (s : State) : (countLine s).fwPhase = s.fwPhase := rfl
@[simp] theorem countLine_frozen (s : State) : (countLine s).frozen = s.frozen := rfl
@[simp] theorem countLine_mode (s : State) : (countLine s).mode = s.mode := rfl
@[simp] theorem countLine_cfg (s : State) : (countLine s).cfg = s.cfg := rfl
@[simp] theorem countLine_scrollDelay (s : State) : (countLine s).scrollDelay = s.scrollDelay := rfl
@[simp] theorem countLine_threeLineDelay (s : State) : (countLine s).threeLineDelay = s.threeLineDelay := rfl
@[simp] theorem countLine_staticText (s : State) : (countLine s).staticText = s.staticText := rfl
@[simp] theorem countLine_started (s : State) : (countLine s).started = s.started := rfl
@[simp] theorem countLine_params (s : State) : (countLine s).params = s.params := rfl
@[simp] theorem countLine_trace (s : State) : (countLine s).trace = s.trace := rfl
@[simp] theorem countLine_inScript (s : State) : (countLine s).inScript = s.inScript := rfl
@[simp] theorem countLine_clockScript (s : State) : (countLine s).clockScript = s.clockScript := rfl
@[simp] theorem countLine_clockCtr (s : State) : (countLine s).clockCtr = s.clockCtr := rfl
@[simp] theorem countLine_drawScript (s : State) : (countLine s).drawScript = s.drawScript := rfl
@[simp] theorem countLine_drawCtr (s : State) : (countLine s).drawCtr = s.drawCtr := rfl

/-! ## wrapLineCtr -/

@[simp] theorem wrapLineCtr_lv (s : State) : (wrapLineCtr s).lv = s.lv := rfl
@[simp] theorem wrapLineCtr_phase (s : State) : (wrapLineCtr s).phase = s.phase := rfl
@[simp] theorem wrapLineCtr_p (s : State) : (wrapLineCtr s).p = s.p := rfl
@[simp] theorem wrapLineCtr_c (s : State) : (wrapLineCtr s).c = s.c := rfl
@[simp] theorem wrapLineCtr_b (s : State) : (wrapLineCtr s).b = s.b := rfl
@[simp] theorem wrapLineCtr_k (s : State) : (wrapLineCtr s).k = s.k := rfl
@[simp] theorem wrapLineCtr_tb (s : State) : (wrapLineCtr s).tb = s.tb := rfl
@[simp] theorem wrapLineCtr_refreshCtr (s : State) : (wrapLineCtr s).refreshCtr = s.refreshCtr := rfl
@[simp] theorem wrapLineCtr_lineCtr (s : State) : (wrapLineCtr s).lineCtr = if s.lineCtr = 3 then 0 else s.lineCtr := rfl
@[simp] theorem wrapLineCtr_wrapPending (s : State) : (wrapLineCtr s).wrapPending = s.wrapPending := rfl
@[simp] theorem wrapLineCtr_fwPhase (s : State) : (wrapLineCtr s).fwPhase = s.fwPhase := rfl
@[simp] theorem wrapLineCtr_frozen (s : State) : (wrapLineCtr s).frozen = s.frozen := rfl
@[simp] theorem wrapLineCtr_mode (s : State) : (wrapLineCtr s).mode = s.mode := rfl
@[simp] theorem wrapLineCtr_cfg (s : State) : (wrapLineCtr s).cfg = s.cfg := rfl
@[simp] theorem wrapLineCtr_scrollDelay (s : State) : (wrapLineCtr s).scrollDelay = s.scrollDelay := rfl
@[simp] theorem wrapLineCtr_threeLineDelay (s : State) : (wrapLineCtr s).threeLineDelay = s.threeLineDelay := rfl
@[simp] theorem wrapLineCtr_staticText (s : State) : (wrapLineCtr s).staticText = s.staticText := rfl
@[simp] theorem wrapLineCtr_started (s : State) : (wrapLineCtr s).started = s.started := rfl
@[simp] theorem wrapLineCtr_params (s : State) : (wrapLineCtr s).params = s.params := rfl
@[simp] theorem wrapLineCtr_trace (s : State) : (wrapLineCtr s).trace = s.trace := rfl
@[simp] theorem wrapLineCtr_inScript (s : State) : (wrapLineCtr s).inScript = s.inScript := rfl
@[simp] theorem wrapLineCtr_clockScript (s : State) : (wrapLineCtr s).clockScript = s.clockScript := rfl
@[simp] theorem wrapLineCtr_clockCtr (s : State) : (wrapLineCtr s).clockCtr = s.clockCtr := rfl
@[simp] theorem wrapLineCtr_drawScript (s : State) : (wrapLineCtr s).drawScript = s.drawScript := rfl
@[simp] theorem wrapLineCtr_drawCtr (s : State) : (wrapLineCtr s).drawCtr = s.drawCtr := rfl

/-! ## setWrapPending -/

@[simp] theorem setWrapPending_lv (v : Bool) (s : State) : (setWrapPending v s).lv = s.lv := rfl
@[simp] theorem setWrapPending_phase (v : Bool) (s : State) : (setWrapPending v s).phase = s.phase := rfl
@[simp] theorem setWrapPending_p (v : Bool) (s : State) : (setWrapPending v s).p = s.p := rfl
@[simp] theorem setWrapPending_c (v : Bool) (s : State) : (setWrapPending v s).c = s.c := rfl
@[simp] theorem setWrapPending_b (v : Bool) (s : State) : (setWrapPending v s).b = s.b := rfl
@[simp] theorem setWrapPending_k (v : Bool) (s : State) : (setWrapPending v s).k = s.k := rfl
@[simp] theorem setWrapPending_tb (v : Bool) (s : State) : (setWrapPending v s).tb = s.tb := rfl
@[simp] theorem setWrapPending_refreshCtr (v : Bool) (s : State) : (setWrapPending v s).refreshCtr = s.refreshCtr := rfl
@[simp] theorem setWrapPending_lineCtr (v : Bool) (s : State) : (setWrapPending v s).lineCtr = s.lineCtr := rfl
@[simp] theorem setWrapPending_wrapPending (v : Bool) (s : State) : (setWrapPending v s).wrapPending = v := rfl
@[simp] theorem setWrapPending_fwPhase (v : Bool) (s : State) : (setWrapPending v s).fwPhase = s.fwPhase := rfl
@[simp] theorem setWrapPending_frozen (v : Bool) (s : State) : (setWrapPending v s).frozen = s.frozen := rfl
@[simp] theorem setWrapPending_mode (v : Bool) (s : State) : (setWrapPending v s).mode = s.mode := rfl
@[simp] theorem setWrapPending_cfg (v : Bool) (s : State) : (setWrapPending v s).cfg = s.cfg := rfl
@[simp] theorem setWrapPending_scrollDelay (v : Bool) (s : State) : (setWrapPending v s).scrollDelay = s.scrollDelay := rfl
@[simp] theorem setWrapPending_threeLineDelay (v : Bool) (s : State) : (setWrapPending v s).threeLineDelay = s.threeLineDelay := rfl
@[simp] theorem setWrapPending_staticText (v : Bool) (s : State) : (setWrapPending v s).staticText = s.staticText := rfl
@[simp] theorem setWrapPending_started (v : Bool) (s : State) : (setWrapPending v s).started = s.started := rfl
@[simp] theorem setWrapPending_params (v : Bool) (s : State) : (setWrapPending v s).params = s.params := rfl
@[simp] theorem setWrapPending_trace (v : Bool) (s : State) : (setWrapPending v s).trace = s.trace := rfl
@[simp] theorem setWrapPending_inScript (v : Bool) (s : State) : (setWrapPending v s).inScript = s.inScript := rfl
@[simp] theorem setWrapPending_clockScript (v : Bool) (s : State) : (setWrapPending v s).clockScript = s.clockScript := rfl
@[simp] theorem setWrapPending_clockCtr (v : Bool) (s : State) : (setWrapPending v s).clockCtr = s.clockCtr := rfl
@[simp] theorem setWrapPending_drawScript (v : Bool) (s : State) : (setWrapPending v s).drawScript = s.drawScript := rfl
@[simp] theorem setWrapPending_drawCtr (v : Bool) (s : State) : (setWrapPending v s).drawCtr = s.drawCtr := rfl

/-! ## clearScreen -/

@[simp] theorem clearScreen_lv (s : State) : (clearScreen s).lv = s.lv := rfl
@[simp] theorem clearScreen_phase (s : State) : (clearScreen s).phase = s.phase := rfl
@[simp] theorem clearScreen_p (s : State) : (clearScreen s).p = s.p := rfl
@[simp] theorem clearScreen_c (s : State) : (clearScreen s).c = s.c := rfl
@[simp] theorem clearScreen_b (s : State) : (clearScreen s).b = s.b := rfl
@[simp] theorem clearScreen_k (s : State) : (clearScreen s).k = s.k := rfl
@[simp] theorem clearScreen_tb (s : State) : (clearScreen s).tb = s.tb.fill 0 (fun _ => Config.space) Config.nVisible := rfl
@[simp] theorem clearScreen_refreshCtr (s : State) : (clearScreen s).refreshCtr = s.refreshCtr := rfl
@[simp] theorem clearScreen_lineCtr (s : State) : (clearScreen s).lineCtr = s.lineCtr := rfl
@[simp] theorem clearScreen_wrapPending (s : State) : (clearScreen s).wrapPending = s.wrapPending := rfl
@[simp] theorem clearScreen_fwPhase (s : State) : (clearScreen s).fwPhase = s.fwPhase := rfl
@[simp] theorem clearScreen_frozen (s : State) : (clearScreen s).frozen = s.frozen := rfl
@[simp] theorem clearScreen_mode (s : State) : (clearScreen s).mode = s.mode := rfl
@[simp] theorem clearScreen_cfg (s : State) : (clearScreen s).cfg = s.cfg := rfl
@[simp] theorem clearScreen_scrollDelay (s : State) : (clearScreen s).scrollDelay = s.scrollDelay := rfl
@[simp] theorem clearScreen_threeLineDelay (s : State) : (clearScreen s).threeLineDelay = s.threeLineDelay := rfl
@[simp] theorem clearScreen_staticText (s : State) : (clearScreen s).staticText = s.staticText := rfl
@[simp] theorem clearScreen_started (s : State) : (clearScreen s).started = s.started := rfl
@[simp] theorem clearScreen_params (s : State) : (clearScreen s).params = s.params := rfl
@[simp] theorem clearScreen_trace (s : State) : (clearScreen s).trace = s.trace := rfl
@[simp] theorem clearScreen_inScript (s : State) : (clearScreen s).inScript = s.inScript := rfl
@[simp] theorem clearScreen_clockScript (s : State) : (clearScreen s).clockScript = s.clockScript := rfl
@[simp] theorem clearScreen_clockCtr (s : State) : (clearScreen s).clockCtr = s.clockCtr := rfl
@[simp] theorem clearScreen_drawScript (s : State) : (clearScreen s).drawScript = s.drawScript := rfl
@[simp] theorem clearScreen_drawCtr (s : State) : (clearScreen s).drawCtr = s.drawCtr := rfl

end Sys2Proof.Machine
end

