-- ==== Sys2Proof/Laws/Ops.lean ====
section
/-! SUPPORT. What each shared operation can do, said once: the operands, the draws, the buffers of the ticks, the end-of-input policy,
the start. -/

namespace Sys2Proof.Machine

/-! ## Operands -/

/-- `norm` is at most 127 (rules R21, R83). -/
theorem norm_le (x : Byte) : (norm x).toNat ≤ 127 := by have := norm_lt x; omega

theorem norm_of_le {x : Byte} (h : x.toNat ≤ 127) : norm x = x := by
  unfold norm
  rw [if_neg]
  simpa [BitVec.lt_def] using h

theorem norm_of_gt {x : Byte} (h : 127 < x.toNat) : norm x = 0 := by
  unfold norm
  rw [if_pos]
  simpa [BitVec.lt_def] using h

@[simp] theorem norm_norm (x : Byte) : norm (norm x) = norm x := norm_of_le (norm_le x)

theorem byteOfCode_le (x : Code7) : (byteOfCode x).toNat ≤ 127 := by
  have := x.isLt
  simp only [byteOfCode, BitVec.toNat_setWidth]
  omega

theorem space_le : Config.space.toNat ≤ 127 := by decide

/-- GLYPH_ROW on a row that exists (rule R82). -/
theorem glyphRow_of_lt (P : Params) (code : Byte) {row : Nat} (h : row < 7) :
    glyphRow P code row = some (glyphByte P code ⟨row, h⟩) := by simp [glyphRow, h]

/-- GLYPH_ROW sees a code only through `norm` (rules R83, R85). -/
theorem glyphByte_norm (P : Params) (code : Byte) (row : Fin 7) : glyphByte P (norm code) row = glyphByte P code row := by
  simp [glyphByte]

/-- `g(p)` is a glyph row whenever `p` is a physical row (rule R88). -/
theorem glyphRowOfPass_lt {p : BitVec 3} (h : p.toNat ≤ 6) : glyphRowOfPass p < 7 := by
  unfold glyphRowOfPass
  split
  · omega
  · next hp =>
    have : p.toNat ≠ 6 := fun h6 => hp (BitVec.eq_of_toNat_eq (by simpa using h6))
    omega

theorem isLineScroll_iff (m : BitVec 3) : isLineScroll m = true ↔ m = Mode.up.code ∨ m = Mode.down.code := by
  simp [isLineScroll]

theorem threshold_congr {s t : State} (h1 : t.scrollDelay = s.scrollDelay) (h2 : t.threeLineDelay = s.threeLineDelay)
    (h3 : t.mode = s.mode) (h4 : t.lineCtr = s.lineCtr) : threshold t = threshold s := by simp [threshold, h1, h2, h3, h4]

/-! ## Draws -/

/-- Everything a draw changes: the script and the count. -/
theorem draw_state (s : State) :
    (draw s).2 = { s with drawScript := s.drawScript.tail, drawCtr := s.drawCtr + 1 } := rfl

/-- A draw is in 0 .. RAND_MAX (rule R44). -/
theorem nthDraw_le (s : State) (n : Nat) : nthDraw s n ≤ randMax s.params := by
  have hfree := Nat.lt_succ_iff.mp (Config.freeDraw (randMax s.params) (s.drawCtr + n)).isLt
  unfold nthDraw
  split
  · split
    · assumption
    · exact hfree
  · exact hfree

/-- The answers after `n` draws are those from the `n`-th on. -/
theorem nthDraw_of_drop {s t : State} {n : Nat} (hs : t.drawScript = s.drawScript.drop n) (hc : t.drawCtr = s.drawCtr + n)
    (hp : t.params = s.params) : nthDraw t 0 = nthDraw s n := by
  rw [nthDraw, nthDraw, hs, hc, hp, List.getElem?_drop]
  rfl

theorem fillByDraws_zero (lo mult : Nat) (glyph : Byte) (s : State) : fillByDraws lo mult glyph 0 s = s := by
  unfold fillByDraws; rfl

theorem fillByDraws_succ (lo mult : Nat) (glyph : Byte) (n : Nat) (s : State) :
    fillByDraws lo mult glyph (n + 1) s =
      { (draw (fillByDraws lo mult glyph n s)).2 with
        tb := (draw (fillByDraws lo mult glyph n s)).2.tb.write (lo + n)
          (if mult * (draw (fillByDraws lo mult glyph n s)).1 > randMax (draw (fillByDraws lo mult glyph n s)).2.params then
            Config.space else glyph) } := by
  unfold fillByDraws; rfl

/-- Everything `fillByDraws` changes: `n` draws are taken, and slot `lo + i` is settled by the `i`-th (rules R136 to R139). -/
theorem fillByDraws_eq (lo mult : Nat) (glyph : Byte) (n : Nat) (s : State) :
    fillByDraws lo mult glyph n s =
      { s with
        tb := s.tb.fill lo (fun i => if mult * nthDraw s i > randMax s.params then Config.space else glyph) n,
        drawScript := s.drawScript.drop n, drawCtr := s.drawCtr + n } := by
  induction n with
  | zero => simp [fillByDraws_zero, Memory.fill_zero]
  | succ n ih =>
    rw [fillByDraws_succ, draw_state]
    generalize fillByDraws lo mult glyph n s = t at ih ⊢
    rw [draw, nthDraw_of_drop (s := s) (n := n) (by rw [ih]) (by rw [ih]) (by rw [ih])]
    subst ih
    simp [Memory.fill_succ, Nat.add_assoc]

/-! ## The clock -/

/-- Everything a sample of the clock gives and changes. -/
theorem now_eq (s : State) :
    now s = (nextInstant s, { s with clockScript := s.clockScript.tail, clockCtr := s.clockCtr + 1 }) := rfl

/-! ## The buffers of the ticks -/

section Buffers

variable {m : Memory} (h : m.wf = true)
include h

theorem wf_scrolledLeft (x : Byte) : (scrolledLeft x m).wf = true :=
  Memory.wf_fill (Memory.wf_write h (by decide) _) _ _ _ (by decide)

/-- A ScrollLeft store (rule R124): slots 0 to 44 take the old next slot, 44 and 45 hold the byte. -/
theorem read_scrolledLeft (x : Byte) (i : Nat) :
    (scrolledLeft x m).read i = if i = 44 ∨ i = 45 then norm x else if i < 44 then m.read (i + 1) else m.read i := by
  have hw := Memory.wf_write h (a := Config.lookahead) (by decide) (norm x)
  simp only [scrolledLeft]
  rw [Memory.read_fill hw _ _ _ (by decide), Memory.read_write h, Memory.read_write h]
  simp only [Config.lookahead, Nat.zero_le, true_and,
    Nat.sub_zero, Nat.zero_add]
  split_ifs <;> first | rfl | omega

theorem wf_scrolledUp : (scrolledUp m).wf = true :=
  Memory.wf_fill (Memory.wf_fill h _ _ _ (by decide)) _ _ _ (by decide)

/-- The buffer of a ScrollUp tick (rule R125). -/
theorem read_scrolledUp (i : Nat) :
    (scrolledUp m).read i = if i < 30 then m.read (i + 15) else if i < 45 then 0 else m.read i := by
  have hw := Memory.wf_fill h 0 (fun i => m.read (i + 15)) 30 (by decide)
  rw [scrolledUp, Memory.read_fill hw _ _ _ (by decide), Memory.read_fill h _ _ _ (by decide)]
  simp only [Config.bottomLine, Config.lineLength, Nat.zero_le, true_and,
    Nat.sub_zero, Nat.zero_add]
  split_ifs <;> first | rfl | omega

theorem wf_scrolledDown : (scrolledDown m).wf = true :=
  Memory.wf_fill (Memory.wf_fill h _ _ _ (by decide)) _ _ _ (by decide)

/-- The buffer of a ScrollDown tick (rule R126). -/
theorem read_scrolledDown (i : Nat) :
    (scrolledDown m).read i = if i < 15 then 0 else if i < 45 then m.read (i - 15) else m.read i := by
  have hw := Memory.wf_fill h 15 (fun i => m.read i) 30 (by decide)
  rw [scrolledDown, Memory.read_fill hw _ _ _ (by decide), Memory.read_fill h _ _ _ (by decide)]
  simp only [Config.lineLength, Nat.zero_le, true_and,
    Nat.zero_add]
  split_ifs <;> first | rfl | omega

theorem wf_dated (d : Vector Code7 45) : (dated d m).wf = true :=
  Memory.wf_write (Memory.wf_fill h _ _ _ (by decide)) (by decide) _

/-- The buffer of a DATE tick (rule R120). -/
theorem read_dated (d : Vector Code7 45) (i : Nat) :
    (dated d m).read i = if hi : i < 45 then byteOfCode d[i] else if i = 45 then 0 else m.read i := by
  have hw := Memory.wf_fill h 0 (fun i => if h : i < 45 then byteOfCode d[i] else 0) Config.nVisible (by decide)
  rw [dated, Memory.read_write hw, Memory.read_fill h _ _ _ (by decide)]
  simp only [Config.lookahead, Config.nVisible, Nat.zero_le, true_and,
    Nat.sub_zero, Nat.zero_add]
  split_ifs <;> first | rfl | omega

theorem wf_burstTracers (P : Params) : (burstTracers P m).wf = true :=
  Memory.wf_fill (Memory.wf_fill h _ _ _ (by decide)) _ _ _ (by decide)

/-- The buffer of the second Fireworks phase, above the landscape (rule R138). -/
theorem read_burstTracers (P : Params) (i : Nat) :
    (burstTracers P m).read i =
      if i < 15 then (if m.read (15 + i) = byteOfCode P.tracerChar then byteOfCode P.burstChar else Config.space)
      else if i < 30 then Config.space else m.read i := by
  have hw := Memory.wf_fill h 0
    (fun i => if m.read (Config.middleLine + i) = byteOfCode P.tracerChar then byteOfCode P.burstChar else Config.space) 15
    (by decide)
  rw [burstTracers, Memory.read_fill hw _ _ _ (by decide), Memory.read_fill h _ _ _ (by decide)]
  simp only [Config.middleLine, Config.lineLength, Nat.zero_le, true_and,
    Nat.sub_zero, Nat.zero_add]
  split_ifs <;> first | rfl | omega

end Buffers

theorem isAscii_scrolledLeft {m : Memory} (h : m.isAscii = true) (x : Byte) : (scrolledLeft x m).isAscii = true := by
  have hw := Memory.isAscii_write h Config.lookahead (norm_le x)
  exact Memory.isAscii_fill hw _ (fun i => Memory.read_le hw _) _

theorem isAscii_scrolledUp {m : Memory} (h : m.isAscii = true) : (scrolledUp m).isAscii = true :=
  Memory.isAscii_fill (Memory.isAscii_fill h _ (fun _ => Memory.read_le h _) _) _ (fun _ => by decide) _

theorem isAscii_scrolledDown {m : Memory} (h : m.isAscii = true) : (scrolledDown m).isAscii = true :=
  Memory.isAscii_fill (Memory.isAscii_fill h _ (fun _ => Memory.read_le h _) _) _ (fun _ => by decide) _

theorem isAscii_dated {m : Memory} (h : m.isAscii = true) (d : Vector Code7 45) : (dated d m).isAscii = true := by
  refine Memory.isAscii_write (Memory.isAscii_fill h _ (fun i => ?_) _) _ (by decide)
  split
  · exact byteOfCode_le _
  · decide

theorem landscapeByte_le (l : Vector Code7 15) (i : Nat) : (landscapeByte l i).toNat ≤ 127 := by
  unfold landscapeByte
  split
  · exact byteOfCode_le _
  · decide

theorem isAscii_burstTracers {m : Memory} (h : m.isAscii = true) (P : Params) : (burstTracers P m).isAscii = true := by
  refine Memory.isAscii_fill (Memory.isAscii_fill h _ (fun i => ?_) _) _ (fun _ => space_le) _
  split
  · exact byteOfCode_le _
  · exact space_le

/-! ## Policies and the start -/

/-- EOF_POLICY changes the phase, `p` and `frozen` only (rule R117). -/
theorem eofPolicy_eq (s : State) :
    eofPolicy s =
      if cfgExitOnEof s.cfg then { s with phase := Phase.halt.code }
      else { s with frozen := true, p := 0, phase := Phase.rowA.code } := by
  unfold eofPolicy; split <;> rfl

theorem staticByte_le (text : List Byte) (i : Nat) : (staticByte text i).toNat ≤ 127 := by
  unfold staticByte
  split
  · exact norm_le _
  · exact space_le

/-- Everything the start sequence leaves (rules R118, R158, R159). -/
theorem start_eq (w : BitVec 8) (m : Mode) (s : State) :
    start w m s =
      { s with
        cfg := w, mode := m.code, started := true, lv := LineLevels.unknown, phase := Phase.rowA.code, p := 0, c := 45, b := 7,
        k := 0, refreshCtr := 0, lineCtr := 0, wrapPending := false, fwPhase := false, frozen := false, trace := [],
        tb := if m = .static then Memory.fill [] 0 (staticByte s.staticText) Config.nVisible else [] } := by
  unfold start
  split <;> rfl

/-- The text STATIC_LOAD leaves in a fresh buffer (rule R118). -/
theorem read_staticFill (text : List Byte) (i : Nat) :
    (Memory.fill [] 0 (staticByte text) Config.nVisible).read i = if i < 45 then staticByte text i else Config.space := by
  rw [Memory.read_fill Memory.wf_nil _ _ _ (by decide)]
  by_cases h : i < 45 <;> simp [h, Memory.blank]

/-! ## One step -/

/-- A started block runs the micro-operation of its phase (rules R8, R62). -/
theorem step_of_phase {s : State} (hs : s.started = true) {i : Instr} (h : decodePhase s.phase = .ok i) :
    step s = exec i s := by simp [step, fetch, hs, h]

/-- Before the start a step is the start sequence on CFG (rules R103, R159). -/
theorem step_before_start {s : State} (hs : s.started = false) : step s = exec (decodeCfg s.cfg) s := by
  simp [step, fetch, hs]

end Sys2Proof.Machine
end

