-- ==== Sys2Proof/Laws/DateText.lean ====
section
/-! SUPPORT. DATE_TEXT, said once: the fields as their digits, their lengths, and each slot of the text (rule R121). -/

namespace Sys2Proof.Machine

/-! ## The fields -/

@[simp] theorem length_decimal (L : DateLayout) (n x : Nat) : (decimal L n x).length = n := by simp [decimal]

theorem length_codes_le {n : Nat} (l : Label n) : l.codes.length ≤ n := by simp [Label.codes]

theorem decimal_one (L : DateLayout) (x : Nat) : decimal L 1 x = [digitCode L x] := by simp [decimal]

theorem decimal_two (L : DateLayout) (x : Nat) : decimal L 2 x = [digitCode L (x / 10), digitCode L x] := by
  simp [decimal, List.range_succ]

theorem decimal_getElem? (L : DateLayout) {n i : Nat} (x : Nat) (hi : i < n) :
    (decimal L n x)[i]? = some (digitCode L (x / 10 ^ (n - 1 - i))) := by
  simp [decimal, hi]

/-- A day or a month as its digits, the first of them or the padding as its own field. -/
theorem dayOrMonth_eq (L : DateLayout) (pad : Option Code7) (x : Nat) :
    dayOrMonth L pad x = (if 10 ≤ x then [digitCode L (x / 10)] else pad.toList) ++ [digitCode L x] := by
  unfold dayOrMonth
  split
  · rw [decimal_two]; rfl
  · rw [decimal_one]

theorem length_dayOrMonth_le (L : DateLayout) (pad : Option Code7) (x : Nat) : (dayOrMonth L pad x).length ≤ 2 := by
  rw [dayOrMonth_eq]
  split
  · simp
  · cases pad <;> simp

/-- HH:MM:SS as its digits. -/
theorem timeField_eq (L : DateLayout) (r : ClockReading) :
    timeField L r =
      [digitCode L (r.hour / 10), digitCode L r.hour, L.colon, digitCode L (r.minute / 10), digitCode L r.minute, L.colon,
        digitCode L (r.second / 10), digitCode L r.second] := by
  simp [timeField, decimal_two]

theorem one_le_digitCount (x : Nat) : 1 ≤ digitCount x := Nat.le_add_left _ _

theorem digitCount_le (x : Nat) : digitCount x ≤ 11 :=
  Nat.succ_le_succ (by simpa using List.countP_le_length (p := fun i => decide (10 ^ (i + 1) ≤ x)) (l := List.range 10))

/-- The powers of ten up to a number, counted among the first `k`. -/
theorem countP_powers {x k : Nat} (h : x < 10 ^ (k + 1)) :
    let c := (List.range k).countP fun i => decide (10 ^ (i + 1) ≤ x)
    x < 10 ^ (c + 1) ∧ (x ≠ 0 → 10 ^ c ≤ x) := by
  induction k with
  | zero => exact ⟨h, fun h0 => Nat.one_le_iff_ne_zero.mpr h0⟩
  | succ k ih =>
    simp only [List.range_succ, List.countP_append, List.countP_singleton, decide_eq_true_eq]
    by_cases hk : 10 ^ (k + 1) ≤ x
    · have hall : (List.range k).countP (fun i => decide (10 ^ (i + 1) ≤ x)) = k := by
        rw [List.countP_eq_length.mpr, List.length_range]
        intro i hi
        have : 10 ^ (i + 1) ≤ 10 ^ (k + 1) := Nat.pow_le_pow_right (by decide) (by have := List.mem_range.mp hi; omega)
        exact decide_eq_true (le_trans this hk)
      rw [if_pos hk, hall]
      exact ⟨h, fun _ => hk⟩
    · rw [if_neg hk]
      exact ih (by omega)

/-- A number of at most 11 digits lies between the powers of ten that `digitCount` says. -/
theorem digitCount_spec {x : Nat} (h : x < 10 ^ 11) : x < 10 ^ digitCount x ∧ (x ≠ 0 → 10 ^ (digitCount x - 1) ≤ x) :=
  countP_powers h

theorem length_yearField (L : DateLayout) (x : Nat) :
    (yearField L x).length = (L.yearDigitsLessOne.map fun n => n.val + 1).getD (digitCount x) := by
  unfold yearField
  split <;> next h => simp [h]

theorem length_yearField_le (L : DateLayout) (x : Nat) : 1 ≤ (yearField L x).length ∧ (yearField L x).length ≤ 11 := by
  rw [length_yearField]
  cases L.yearDigitsLessOne with
  | none => exact ⟨one_le_digitCount x, digitCount_le x⟩
  | some n => exact ⟨Nat.le_add_left _ _, n.isLt⟩

/-- Every digit of the year. -/
theorem yearField_getElem? (L : DateLayout) (x : Nat) {i : Nat} (hi : i < (yearField L x).length) :
    (yearField L x)[i]? = some (digitCode L (x / 10 ^ ((yearField L x).length - 1 - i))) := by
  revert hi
  unfold yearField
  split <;> intro hi <;> rw [length_decimal] at hi ⊢ <;> exact decimal_getElem? L x hi

/-- Every field fits its line. -/
theorem length_dateField_le (L : DateLayout) (r : ClockReading) : (dateField L r).length ≤ 15 := by
  have h1 := length_dayOrMonth_le L L.padDay r.day
  have h2 := length_dayOrMonth_le L L.padMonth r.month
  have h3 := length_yearField_le L r.year
  simp only [dateField, daySeparatorField, monthSeparatorField, separatorRoom, Config.lineLength, List.length_append,
    List.length_take]
  omega

theorem length_weekdayField_le (L : DateLayout) (r : ClockReading) : (weekdayField L r).length ≤ 15 := by
  have := length_codes_le L.weekdays[r.weekday].2
  simp only [weekdayField, List.length_cons]
  omega

/-- Separators that leave room for the numbers stand whole. -/
theorem separatorFields_eq {L : DateLayout} {r : ClockReading}
    (h : L.daySeparator.codes.length + L.monthSeparator.codes.length + (yearField L r.year).length ≤ 11) :
    daySeparatorField L r = L.daySeparator.codes ∧ monthSeparatorField L r = L.monthSeparator.codes := by
  have h1 := length_dayOrMonth_le L L.padDay r.day
  have h2 := length_dayOrMonth_le L L.padMonth r.month
  have hd : daySeparatorField L r = L.daySeparator.codes := by
    rw [daySeparatorField, List.take_of_length_le]
    simp only [separatorRoom, Config.lineLength]
    omega
  refine ⟨hd, ?_⟩
  rw [monthSeparatorField, hd, List.take_of_length_le]
  simp only [separatorRoom, Config.lineLength]
  omega

/-! ## The lines -/

/-- A line whose slots are those of a padded field holds the field, padded. -/
theorem Memory.holdsPadded_of_read {m : Memory} {lo : Nat} {wanted : Fin 16} {field : List Code7} (hf : field.length ≤ 15)
    (h : ∀ i, i < 15 → m.read (lo + i) = byteOfCode (paddedCode wanted field i)) : m.holdsPadded lo field := by
  refine ⟨leadingSpaces wanted field, ?_, fun i hi => ?_⟩
  · simp only [leadingSpaces, Config.lineLength]
    omega
  · rw [h i hi, paddedCode]
    split
    · rfl
    · cases field[i - leadingSpaces wanted field]? <;> rfl

/-- Slot `i` of the date text. -/
theorem dateText_getElem (P : Params) (t : Instant) (i : Nat) (hi : i < 45) :
    (dateText P t)[i] = dateCode (readingAndLayout P t).2 (readingAndLayout P t).1 i := by
  simp only [dateText, Vector.getElem_mk, List.getElem_toArray, List.getElem_map, List.getElem_range]

theorem dateCode_top (L : DateLayout) (r : ClockReading) {i : Nat} (hi : i < 15) :
    dateCode L r (0 + i) = paddedCode L.spacesBeforeDate (dateField L r) i := by
  rw [dateCode, if_pos (by simpa [Config.middleLine] using hi), Nat.zero_add]

theorem dateCode_middle (L : DateLayout) (r : ClockReading) {i : Nat} (hi : i < 15) :
    dateCode L r (15 + i) = paddedCode L.spacesBeforeTime (timeField L r) i := by
  rw [dateCode, if_neg (by simp [Config.middleLine]), if_pos (by simp only [Config.bottomLine]; omega)]
  simp [Config.middleLine]

theorem dateCode_bottom (L : DateLayout) (r : ClockReading) (i : Nat) :
    dateCode L r (30 + i) = paddedCode L.spacesBeforeWeekday (weekdayField L r) i := by
  rw [dateCode, if_neg (by simp only [Config.middleLine]; omega), if_neg (by simp [Config.bottomLine])]
  simp [Config.bottomLine]

end Sys2Proof.Machine
end

