-- ==== Sys2Proof/Laws/Effects.lean ====
section
/-! SUPPORT. Everything the Snow and Fireworks ticks do (rules R136 to R139), said once. -/

namespace Sys2Proof.Machine

/-- The buffer of a Snow tick, with `f i` in position `i` of the top line (rule R136). -/
def snowed (P : Params) (f : Nat → Byte) (m : Memory) : Memory :=
  (((m.fill Config.middleLine (fun i => m.read i) Config.lineLength).fill Config.bottomLine (landscapeByte P.landscapeSnow)
    Config.lineLength).fill 0 (fun _ => Config.space) Config.lineLength).fill 0 f Config.lineLength

/-- The buffer of the first Fireworks phase, with `f i` in position `i` of the middle line (rule R138). -/
def traced (P : Params) (f : Nat → Byte) (m : Memory) : Memory :=
  (m.fill Config.bottomLine (landscapeByte P.landscapeFw) Config.lineLength).fill Config.middleLine f Config.lineLength

/-- What position `i` gets for its draw (rules R137, R139). -/
def byDraw (s : State) (mult : Nat) (glyph : Byte) (i : Nat) : Byte :=
  if mult * nthDraw s i > randMax s.params then Config.space else glyph

theorem tickSnow_eq (s : State) :
    tickSnow s =
      { s with
        tb := snowed s.params (byDraw s 2 (byteOfCode s.params.snowChar)) s.tb, p := 0, phase := Phase.rowA.code,
        drawScript := s.drawScript.drop 15, drawCtr := s.drawCtr + 15 } := by
  simp only [tickSnow, fillByDraws_eq]
  rfl

theorem tickFw_eq (s : State) :
    tickFw s =
      if s.fwPhase = false then
        { s with
          tb := traced s.params (byDraw s 16 (byteOfCode s.params.tracerChar)) s.tb, fwPhase := true, p := 0,
          phase := Phase.rowA.code, drawScript := s.drawScript.drop 15, drawCtr := s.drawCtr + 15 }
      else
        { s with
          tb := burstTracers s.params (s.tb.fill Config.bottomLine (landscapeByte s.params.landscapeFw) Config.lineLength),
          fwPhase := false, p := 0, phase := Phase.rowA.code } := by
  simp only [tickFw, fillByDraws_eq]
  split <;> rfl

section Buffers

variable {m : Memory} (h : m.wf = true) (P : Params)
include h

theorem wf_landscaped (l : Vector Code7 15) : (m.fill Config.bottomLine (landscapeByte l) Config.lineLength).wf = true :=
  Memory.wf_fill h _ _ _ (by decide)

theorem read_landscaped (l : Vector Code7 15) (i : Nat) :
    (m.fill Config.bottomLine (landscapeByte l) Config.lineLength).read i =
      if 30 ≤ i ∧ i < 45 then landscapeByte l (i - 30) else m.read i :=
  Memory.read_fill h _ _ _ (by decide) _

theorem wf_snowed (f : Nat → Byte) : (snowed P f m).wf = true :=
  Memory.wf_fill (Memory.wf_fill (wf_landscaped (Memory.wf_fill h _ _ _ (by decide)) _) _ _ _ (by decide)) _ _ _ (by decide)

theorem read_snowed (f : Nat → Byte) (i : Nat) :
    (snowed P f m).read i =
      if i < 15 then f i else if i < 30 then m.read (i - 15)
      else if i < 45 then landscapeByte P.landscapeSnow (i - 30) else m.read i := by
  have w1 := Memory.wf_fill h Config.middleLine (fun i => m.read i) Config.lineLength (by decide)
  have w2 := wf_landscaped w1 P.landscapeSnow
  have w3 := Memory.wf_fill w2 0 (fun _ => Config.space) Config.lineLength (by decide)
  rw [snowed, Memory.read_fill w3 _ _ _ (by decide), Memory.read_fill w2 _ _ _ (by decide), Memory.read_fill w1 _ _ _ (by decide),
    Memory.read_fill h _ _ _ (by decide)]
  simp only [Config.middleLine, Config.bottomLine, Config.lineLength, Nat.zero_le, true_and, Nat.sub_zero, Nat.zero_add]
  split_ifs <;> first | rfl | omega

theorem wf_traced (f : Nat → Byte) : (traced P f m).wf = true := Memory.wf_fill (wf_landscaped h _) _ _ _ (by decide)

theorem read_traced (f : Nat → Byte) (i : Nat) :
    (traced P f m).read i =
      if 15 ≤ i ∧ i < 30 then f (i - 15) else if 30 ≤ i ∧ i < 45 then landscapeByte P.landscapeFw (i - 30) else m.read i := by
  have w := wf_landscaped h P.landscapeFw
  rw [traced, Memory.read_fill w _ _ _ (by decide), read_landscaped h]
  rfl

end Buffers

end Sys2Proof.Machine
end

