-- ==== Sys2Proof/Laws/Input.lean ====
section
/-! SUPPORT. The class of a symbol by the value of its byte, what a stored byte is, and the read step behind a symbol row
(rules R57, R83, R110 to R115). -/

namespace Sys2Proof.Machine

theorem classOf_eof {x : BitVec 9} (h : 256 ≤ x.toNat) : classOf x = .eof := by revert x; decide +kernel

theorem le_of_classOf_eof {x : BitVec 9} (h : classOf x = .eof) : 256 ≤ x.toNat := by revert x; decide +kernel

theorem classOf_lf {x : BitVec 9} (h : x.toNat = 10) : classOf x = .lf := by revert x; decide +kernel

theorem classOf_cr {x : BitVec 9} (h : x.toNat = 13) : classOf x = .cr := by revert x; decide +kernel

theorem classOf_ff {x : BitVec 9} (h : x.toNat = 12) : classOf x = .ff := by revert x; decide +kernel

theorem classOf_high {x : BitVec 9} (h : 128 ≤ x.toNat) (h' : x.toNat < 256) : classOf x = .high (x.extractLsb' 0 8) := by
  revert x; decide +kernel

theorem classOf_normal {x : BitVec 9} (h : x.toNat < 128) (hlf : x.toNat ≠ 10) (hff : x.toNat ≠ 12) (hcr : x.toNat ≠ 13) :
    classOf x = .normal (x.extractLsb' 0 8) := by
  revert x; decide +kernel

/-- The byte that is stored for a byte symbol: 0 above 127, else the byte itself (rules R83, R114, R115). -/
theorem norm_symbol {x : BitVec 9} (h : x.toNat < 256) :
    norm (x.extractLsb' 0 8) = BitVec.ofNat 8 (if 127 < x.toNat then 0 else x.toNat) := by
  revert x; decide +kernel

/-- A byte that is stored is HIGH or NORMAL, and FF where a mode takes it for one (rule R57). -/
theorem classOf_stored {x : BitVec 9} (h : x.toNat < 256) (hlf : x.toNat ≠ 10) (hff : x.toNat ≠ 12) (hcr : x.toNat ≠ 13) :
    classOf x = .high (x.extractLsb' 0 8) ∨ classOf x = .normal (x.extractLsb' 0 8) := by
  by_cases h' : x.toNat < 128
  · exact .inr (classOf_normal h' hlf hff hcr)
  · exact .inl (classOf_high (by omega) h)

theorem high_bits {x : BitVec 9} {byte : BitVec 8} (h : classOf x = .high byte) : 1#1 ++ byte.extractLsb' 0 7 = byte := by
  have hb : ∀ x : BitVec 9, classOf x = .high (x.extractLsb' 0 8) →
      1#1 ++ (x.extractLsb' 0 8).extractLsb' 0 7 = x.extractLsb' 0 8 := by decide +kernel
  have hx : byte = x.extractLsb' 0 8 := by unfold classOf at h; split_ifs at h; injection h with h; exact h.symm
  subst hx
  exact hb x h

theorem normal_bits {x : BitVec 9} {byte : BitVec 8} (h : classOf x = .normal byte) : 0#1 ++ byte.extractLsb' 0 7 = byte := by
  have hb : ∀ x : BitVec 9, classOf x = .normal (x.extractLsb' 0 8) →
      0#1 ++ (x.extractLsb' 0 8).extractLsb' 0 7 = x.extractLsb' 0 8 := by decide +kernel
  have hx : byte = x.extractLsb' 0 8 := by unfold classOf at h; split_ifs at h; injection h with h; exact h.symm
  subst hx
  exact hb x h

/-- A symbol row is the read step on a symbol of its class (rules R110 to R115). -/
theorem exec_decodeSymbol (x : BitVec 9) (s : State) : exec (decodeSymbol x) s = readSymbol (classOf x) s := by
  unfold decodeSymbol
  split <;> rename_i h <;> rw [h] <;>
    simp only [exec, execSymEof, execSymLf, execSymCr, execSymFf, execSymHigh, execSymNormal]
  · rw [high_bits h]
  · rw [normal_bits h]

end Sys2Proof.Machine
end

