-- ==== Sys2Proof/Laws/PerInstr.lean ====
section
/-! SUPPORT. The per-instruction families of LAWS.json. `EncodeFits`: the encoded word of an instruction has no bit above the width of
its format (rule R53), so that no stored word is refused for a bit outside its format. -/

namespace Sys2Proof.Laws.EncodeFits

/-- The word of `i` fits in its format (rule R53). -/
def Statement (i : Instr) : Prop := (encodeWord i).toNat < 2 ^ (formatOf i).width

theorem setWidth_lt {n : Nat} (k : Nat) (x : BitVec n) (h : n ≤ k) : (x.setWidth 16).toNat < 2 ^ k := by
  simp only [BitVec.toNat_setWidth]
  exact Nat.lt_of_le_of_lt (Nat.mod_le _ _) (Nat.lt_of_lt_of_le x.isLt (Nat.pow_le_pow_right (by decide) h))

theorem setSclk (v : Bool) : Statement (.setSclk v) := setWidth_lt 4 _ (by decide)
theorem setSdata (v : Bool) : Statement (.setSdata v) := setWidth_lt 4 _ (by decide)
theorem setStb (v : Bool) : Statement (.setStb v) := setWidth_lt 4 _ (by decide)
theorem setRowa (v : Bool) : Statement (.setRowa v) := setWidth_lt 4 _ (by decide)
theorem setRowb (v : Bool) : Statement (.setRowb v) := setWidth_lt 4 _ (by decide)
theorem setRowc (v : Bool) : Statement (.setRowc v) := setWidth_lt 4 _ (by decide)
theorem symEof (b : BitVec 8) : Statement (.symEof b) := setWidth_lt 9 _ (by decide)
theorem symLf : Statement .symLf := by unfold Statement; decide
theorem symCr : Statement .symCr := by unfold Statement; decide
theorem symFf : Statement .symFf := by unfold Statement; decide
theorem symHigh (b : BitVec 7) : Statement (.symHigh b) := setWidth_lt 9 _ (by decide)
theorem symNormal (b : BitVec 7) : Statement (.symNormal b) := setWidth_lt 9 _ (by decide)
theorem modeRefuseBadScroll (x d s : Bool) (e : BitVec 2) (v : Bool) : Statement (.modeRefuseBadScroll x d s e v) := setWidth_lt 8 _ (by decide)
theorem modeRefuseBadEffect (x d s : Bool) (m : BitVec 2) (v : Bool) : Statement (.modeRefuseBadEffect x d s m v) := setWidth_lt 8 _ (by decide)
theorem modeRefuseStaticDate (x : Bool) (m e : BitVec 2) (v : Bool) : Statement (.modeRefuseStaticDate x m e v) := setWidth_lt 8 _ (by decide)
theorem modeRefuseStaticSnow (x : Bool) (m : BitVec 2) (v : Bool) : Statement (.modeRefuseStaticSnow x m v) := setWidth_lt 8 _ (by decide)
theorem modeRefuseStaticFw (x : Bool) (m : BitVec 2) (v : Bool) : Statement (.modeRefuseStaticFw x m v) := setWidth_lt 8 _ (by decide)
theorem modeRefuseDateSnow (x : Bool) (m : BitVec 2) (v : Bool) : Statement (.modeRefuseDateSnow x m v) := setWidth_lt 8 _ (by decide)
theorem modeRefuseDateFw (x : Bool) (m : BitVec 2) (v : Bool) : Statement (.modeRefuseDateFw x m v) := setWidth_lt 8 _ (by decide)
theorem modeStatic (x : Bool) (m : BitVec 2) (v : Bool) : Statement (.modeStatic x m v) := setWidth_lt 8 _ (by decide)
theorem modeDate (x : Bool) (m : BitVec 2) (v : Bool) : Statement (.modeDate x m v) := setWidth_lt 8 _ (by decide)
theorem modeSnow (x : Bool) (m : BitVec 2) (v : Bool) : Statement (.modeSnow x m v) := setWidth_lt 8 _ (by decide)
theorem modeFw (x : Bool) (m : BitVec 2) (v : Bool) : Statement (.modeFw x m v) := setWidth_lt 8 _ (by decide)
theorem modeLeft (x v : Bool) : Statement (.modeLeft x v) := setWidth_lt 8 _ (by decide)
theorem modeUp (x v : Bool) : Statement (.modeUp x v) := setWidth_lt 8 _ (by decide)
theorem modeDown (x v : Bool) : Statement (.modeDown x v) := setWidth_lt 8 _ (by decide)
theorem phaseRowA : Statement .phaseRowA := setWidth_lt 4 _ (by decide)
theorem phaseRowB : Statement .phaseRowB := setWidth_lt 4 _ (by decide)
theorem phaseRowC : Statement .phaseRowC := setWidth_lt 4 _ (by decide)
theorem phaseData : Statement .phaseData := setWidth_lt 4 _ (by decide)
theorem phaseClkH : Statement .phaseClkH := setWidth_lt 4 _ (by decide)
theorem phaseClkL : Statement .phaseClkL := setWidth_lt 4 _ (by decide)
theorem phaseStbH : Statement .phaseStbH := setWidth_lt 4 _ (by decide)
theorem phaseStbL : Statement .phaseStbL := setWidth_lt 4 _ (by decide)
theorem phasePost : Statement .phasePost := setWidth_lt 4 _ (by decide)
theorem phaseTick : Statement .phaseTick := setWidth_lt 4 _ (by decide)
theorem phaseRdL : Statement .phaseRdL := setWidth_lt 4 _ (by decide)
theorem phaseRdV : Statement .phaseRdV := setWidth_lt 4 _ (by decide)
theorem phaseHalt : Statement .phaseHalt := setWidth_lt 4 _ (by decide)

end Sys2Proof.Laws.EncodeFits
end

