-- ==== Sys2Proof/Laws/Step.lean ====
section
/-! SUPPORT. Everything a step of a started block can do, said once: the case analysis that invariants and frames go through. -/

namespace Sys2Proof.Machine

/-- The next states of a started block, by phase (rules R91 to R98, R101, R102, R109, R124, R132). -/
inductive StepCase (s : State) : State → Prop where
  | rowA (h : s.inPhase .rowA) : StepCase s (goto .rowB (setLine .rowa (rowSelectBit s.p 0) s))
  | rowB (h : s.inPhase .rowB) : StepCase s (goto .rowC (setLine .rowb (rowSelectBit s.p 1) s))
  | rowC (h : s.inPhase .rowC) :
      StepCase s (goto .data { setLine .rowc (rowSelectBit s.p 2) s with c := 45, b := 7 })
  | data (h : s.inPhase .data) (hc : s.c.toNat < Config.nSlots) (x : Byte)
      (hx : glyphRow s.params (s.tb.read s.c.toNat) (glyphRowOfPass s.p) = some x) :
      StepCase s (goto .clkH (setLine .sdata (pixelLevel x s.b) s))
  | clkH (h : s.inPhase .clkH) : StepCase s (goto .clkL (setLine .sclk true s))
  | clkL (h : s.inPhase .clkL) : StepCase s (advanceBit (setLine .sclk false s))
  | stbH (h : s.inPhase .stbH) : StepCase s (goto .stbL (setLine .stb true s))
  | stbL (h : s.inPhase .stbL) : StepCase s (advanceRow (setLine .stb false s))
  | post (h : s.inPhase .post) : StepCase s (countRefresh s)
  | tickDate (h : s.inPhase .tick) (hm : s.inMode .date) : StepCase s (tickDate s)
  | tickSnow (h : s.inPhase .tick) (hm : s.inMode .snow) : StepCase s (tickSnow s)
  | tickFw (h : s.inPhase .tick) (hm : s.inMode .fw) : StepCase s (tickFw s)
  | tickLeft (h : s.inPhase .tick) (hm : s.inMode .left) : StepCase s (tickLeft s)
  | tickUp (h : s.inPhase .tick) (hm : s.inMode .up) : StepCase s (tickUp s)
  | tickDown (h : s.inPhase .tick) (hm : s.inMode .down) : StepCase s (tickDown s)
  | wait (h : s.inReadPhase) (hp : s.inScript = []) : StepCase s s
  | readLeft (h : s.inPhase .rdL) (x : BitVec 9) (rest : List (BitVec 9)) (hp : s.inScript = x :: rest) :
      StepCase s (readLeft (classOf x) (consumeSymbol s))
  | readLine (h : s.inPhase .rdV) (x : BitVec 9) (rest : List (BitVec 9)) (hp : s.inScript = x :: rest) :
      StepCase s (readLine (classOf x) (consumeSymbol s))

theorem modeOfCode_eq {w : BitVec 3} {m : Mode} (h : modeOfCode w = some m) : w = m.code := by
  revert w m; decide +revert

/-- A next state of a started block is one of the cases. -/
theorem step_cases {s t : State} (hs : s.started = true) (h : step s = .next t) : StepCase s t := by
  have hp : ∀ w : BitVec 4, w = 0 ∨ w = 1 ∨ w = 2 ∨ w = 3 ∨ w = 4 ∨ w = 5 ∨ w = 6 ∨ w = 7 ∨ w = 8 ∨ w = 9 ∨ w = 10 ∨ w = 11 ∨
      w = 12 ∨ decodePhase w = .error .unusedPhase := by decide
  rcases hp s.phase with hp | hp | hp | hp | hp | hp | hp | hp | hp | hp | hp | hp | hp | hp
  · rw [step_of_phase hs (by rw [hp]; rfl)] at h
    cases h; exact .rowA hp
  · rw [step_of_phase hs (by rw [hp]; rfl)] at h
    cases h; exact .rowB hp
  · rw [step_of_phase hs (by rw [hp]; rfl)] at h
    cases h; exact .rowC hp
  · rw [step_of_phase hs (i := .phaseData) (by rw [hp]; rfl)] at h
    simp only [exec, execPhaseData] at h
    split at h
    · cases h
    · next code hcode =>
      split at h
      · cases h
      · next x hx =>
        cases h
        unfold State.readSlot at hcode
        split at hcode
        · next hc => cases hcode; exact .data hp hc x hx
        · cases hcode
  · rw [step_of_phase hs (by rw [hp]; rfl)] at h
    cases h; exact .clkH hp
  · rw [step_of_phase hs (by rw [hp]; rfl)] at h
    cases h; exact .clkL hp
  · rw [step_of_phase hs (by rw [hp]; rfl)] at h
    cases h; exact .stbH hp
  · rw [step_of_phase hs (by rw [hp]; rfl)] at h
    cases h; exact .stbL hp
  · rw [step_of_phase hs (by rw [hp]; rfl)] at h
    cases h; exact .post hp
  · rw [step_of_phase hs (i := .phaseTick) (by rw [hp]; rfl)] at h
    simp only [exec, execPhaseTick] at h
    split at h <;> cases h <;> next hm => first
      | exact .tickDate hp (modeOfCode_eq hm)
      | exact .tickSnow hp (modeOfCode_eq hm)
      | exact .tickFw hp (modeOfCode_eq hm)
      | exact .tickLeft hp (modeOfCode_eq hm)
      | exact .tickUp hp (modeOfCode_eq hm)
      | exact .tickDown hp (modeOfCode_eq hm)
  · rw [step_of_phase hs (i := .phaseRdL) (by rw [hp]; rfl)] at h
    simp only [exec, execPhaseRdL] at h
    split at h
    · next hi => cases h; exact .wait (.inl hp) hi
    · next x rest hi => cases h; exact .readLeft hp x rest hi
  · rw [step_of_phase hs (i := .phaseRdV) (by rw [hp]; rfl)] at h
    simp only [exec, execPhaseRdV] at h
    split at h
    · next hi => cases h; exact .wait (.inr hp) hi
    · next x rest hi => cases h; exact .readLine hp x rest hi
  · rw [step_of_phase hs (i := .phaseHalt) (by rw [hp]; rfl)] at h
    cases h
  · simp [step, fetch, hs, hp] at h

end Sys2Proof.Machine
end

