-- ==== Sys2Proof/Laws/Run.lean ====
section
/-! SUPPORT. Runs of the machine: a run of some steps and then more, and an invariant carried along a run that never stops. The laws of
a run are stated for any `Host.Core`, since `Sys2Proof.core.State` is `State` only by unfolding. -/

namespace Sys2Proof.Machine

theorem coreRun_succ (M : Host.Core) (n : Nat) (s : M.State) :
    M.run (n + 1) s =
      match M.step s with
      | .next t => M.run n t
      | .fault r => .fault r
      | .refused r => .refused r := rfl

theorem coreRun_succ_of_step {M : Host.Core} {s t : M.State} (h : M.step s = .next t) (n : Nat) : M.run (n + 1) s = M.run n t := by
  rw [coreRun_succ, h]

theorem coreRun_add {M : Host.Core} (m n : Nat) {s t : M.State} (h : M.run m s = .next t) : M.run (m + n) s = M.run n t := by
  induction m generalizing s with
  | zero => cases h; rw [Nat.zero_add]
  | succ m ih =>
    rw [coreRun_succ] at h
    rw [Nat.succ_add, coreRun_succ]
    cases hs : M.step s with
    | next u => rw [hs] at h; exact ih h
    | fault r => rw [hs] at h; cases h
    | refused r => rw [hs] at h; cases h

theorem run_zero (s : State) : Host.Core.run Sys2Proof.core 0 s = .next s := rfl

/-- One step that goes on, then the rest of the run. -/
theorem run_succ_of_step {s t : State} (h : step s = .next t) (n : Nat) :
    Host.Core.run Sys2Proof.core (n + 1) s = Host.Core.run Sys2Proof.core n t := coreRun_succ_of_step (M := Sys2Proof.core) h n

/-- A run that goes on for `m` steps, then `n` more. -/
theorem run_add {m : Nat} {s t : State} (h : Host.Core.run Sys2Proof.core m s = .next t) (n : Nat) :
    Host.Core.run Sys2Proof.core (m + n) s = Host.Core.run Sys2Proof.core n t := coreRun_add (M := Sys2Proof.core) m n h

/-- If every state with `P` has a step to a state with `P`, a run from one never stops and ends with `P`. -/
theorem run_of_progress {P : State → Prop} (hP : ∀ s, P s → ∃ t, step s = .next t ∧ P t) (n : Nat) {s : State} (h : P s) :
    ∃ t : State, Host.Core.run Sys2Proof.core n s = .next t ∧ P t := by
  induction n generalizing s with
  | zero => exact ⟨s, rfl, h⟩
  | succ n ih =>
    obtain ⟨u, hu, hPu⟩ := hP s h
    obtain ⟨t, ht, hPt⟩ := ih hPu
    exact ⟨t, (run_succ_of_step hu n).trans ht, hPt⟩

end Sys2Proof.Machine
end

