-- ==== Sys2Proof/Tests/Slice0.lean ====
section
/-! SUPPORT. The model's own tests. The expected values of the step and decode tests are those of `95_test_vectors.md` (the vector's name
stands beside the test) or of the rule named; none was taken from the model. The witnesses at the end meet the hypotheses of the
statements in Certificates/Slice0/Obligations.lean. -/

namespace Sys2Proof.Tests

open Sys2Proof Sys2Proof.Machine

/-! ## Helpers -/

/-- FONT_T[c][r] (`95_test_vectors.md` section 0). -/
def fontTByte (c r : Nat) : Byte := if c = 0 ∨ c = 0x20 then 0x00 else BitVec.ofNat 8 ((c + r) % 64 * 4 + 3)

/-- FONT_T. -/
def fontT : Vector Byte 896 := ⟨((List.range 896).map fun i => fontTByte (i / 7) (i % 7)).toArray, by simp⟩

/-- The codes of characters. -/
def codesOf (l : List Char) : List Code7 := l.map fun c => BitVec.ofNat 7 c.toNat

/-- A label that holds the given codes. -/
def labelOf (n : Nat) (l : List Code7) : Label n :=
  { length := Fin.ofNat (n + 1) l.length, letters := ⟨((List.range n).map fun i => l.getD i 0).toArray, by simp⟩ }

/-- A weekday name. -/
def nameOf (l : List Char) : Code7 × Label 14 := ((codesOf l).headD 0, labelOf 14 (codesOf l).tail)

/-- DATE_T (`95_test_vectors.md` section 0) for a weekday name of nine letters: each field centred, with the extra space on the
right. -/
def dateT : DateLayout where
  digits := #v[0x30, 0x31, 0x32, 0x33, 0x34, 0x35, 0x36, 0x37, 0x38, 0x39]
  colon := 0x3A
  daySeparator := labelOf 15 [0x2F]
  monthSeparator := labelOf 15 [0x2F]
  padDay := some 0x30
  padMonth := some 0x30
  yearDigitsLessOne := some 3
  weekdays := #v[nameOf ['S', 'u', 'n', 'd', 'a', 'y'], nameOf ['M', 'o', 'n', 'd', 'a', 'y'],
    nameOf ['T', 'u', 'e', 's', 'd', 'a', 'y'], nameOf ['W', 'e', 'd', 'n', 'e', 's', 'd', 'a', 'y'],
    nameOf ['T', 'h', 'u', 'r', 's', 'd', 'a', 'y'], nameOf ['F', 'r', 'i', 'd', 'a', 'y'],
    nameOf ['S', 'a', 't', 'u', 'r', 'd', 'a', 'y']]
  spacesBeforeDate := 2
  spacesBeforeTime := 3
  spacesBeforeWeekday := 3

/-- The instant of V-DATE-1: Wed 11/11/2026 12:00:05. -/
def readingT : ClockReading := { day := 11, month := 11, year := 2026, weekday := 3, hour := 12, minute := 0, second := 5 }

/-- The parameters of the fixtures of `95_test_vectors.md` sections 0 and 2.8; RAND_MAX is an argument. -/
def paramsT (randMax : Nat) : Params where
  font := fontT
  landscapeSnow := Vector.replicate 15 0x5E
  landscapeFw := Vector.replicate 15 0x5F
  snowChar := 0x2A
  tracerChar := 0x2A
  burstChar := 0x6F
  randMaxLessOne := randMax - 1
  tSettleLessOne := 0
  dateTable := [(5, readingT, dateT)]

/-- The reset state on the test parameters. -/
def base : State := { State.reset with params := paramsT 15 }

/-- The next state, if the outcome has one. -/
def nextOf : Host.Outcome State Fault Refusal → Option State
  | .next s => some s
  | .fault _ => none
  | .refused _ => none

/-- A field of the next state. -/
def after {α : Type} (o : Host.Outcome State Fault Refusal) (f : State → α) : Option α := (nextOf o).map f

/-- The slots of the text buffer from `lo` on. -/
def slots (m : Memory) (lo n : Nat) : List Byte := (List.range n).map fun i => m.read (lo + i)

/-! ## WellFormed refuses -/

theorem test_wf_refuses_normal_lf : WellFormed (.symNormal 10) = false := by decide
theorem test_wf_refuses_normal_ff : WellFormed (.symNormal 12) = false := by decide
theorem test_wf_refuses_normal_cr : WellFormed (.symNormal 13) = false := by decide
theorem test_wf_accepts_other_normals : WellFormed (.symNormal 11) = true ∧ WellFormed (.symNormal 127) = true := by decide
theorem test_wf_refuses_bad_effect_scroll : WellFormed (.modeRefuseBadEffect false false false 3 false) = false := by decide
theorem test_wf_refuses_static_date_scroll : WellFormed (.modeRefuseStaticDate false 3 0 false) = false := by decide
theorem test_wf_refuses_static_date_effect : WellFormed (.modeRefuseStaticDate false 0 3 false) = false := by decide
theorem test_wf_refuses_static_snow_scroll : WellFormed (.modeRefuseStaticSnow false 3 false) = false := by decide
theorem test_wf_refuses_static_fw_scroll : WellFormed (.modeRefuseStaticFw false 3 false) = false := by decide
theorem test_wf_refuses_date_snow_scroll : WellFormed (.modeRefuseDateSnow false 3 false) = false := by decide
theorem test_wf_refuses_date_fw_scroll : WellFormed (.modeRefuseDateFw false 3 false) = false := by decide
theorem test_wf_refuses_static_scroll : WellFormed (.modeStatic false 3 false) = false := by decide
theorem test_wf_refuses_date_scroll : WellFormed (.modeDate false 3 false) = false := by decide
theorem test_wf_refuses_snow_scroll : WellFormed (.modeSnow false 3 false) = false := by decide
theorem test_wf_refuses_fw_scroll : WellFormed (.modeFw false 3 false) = false := by decide

/-! ## Decode: words written out from the tables of `30_encoding.md` -/

/-- V-LD-1 to V-LD-12: the code is the identifier in bits 3:1 and the level in bit 0 (rule R55). -/
theorem test_decode_line_events :
    [0b0000, 0b0001, 0b0010, 0b0011, 0b0100, 0b0101, 0b0110, 0b0111, 0b1000, 0b1001, 0b1010, 0b1011].map (fun w => decodeLineEvent w) =
      [.ok (.setSclk false), .ok (.setSclk true), .ok (.setSdata false), .ok (.setSdata true), .ok (.setStb false), .ok (.setStb true),
       .ok (.setRowa false), .ok (.setRowa true), .ok (.setRowb false), .ok (.setRowb true), .ok (.setRowc false),
       .ok (.setRowc true)] := by rfl

/-- V-LD-14. -/
theorem test_decode_line_event_refusals :
    [0xC, 0xD, 0xE, 0xF].map (fun w => decodeLineEvent w) = List.replicate 4 (.error .spellsNoEvent) := by rfl

/-- V-IN-1 to V-IN-17: bit 8 is the end bit, bits 7:0 are the byte (rules R56, R57). -/
theorem test_decode_symbols :
    [0b000000000, 0b000001001, 0b000001010, 0b000001011, 0b000001100, 0b000001101, 0b000001110, 0b000100000, 0b001111111].map
        decodeSymbol =
      [.symNormal 0, .symNormal 9, .symLf, .symNormal 0x0B, .symFf, .symCr, .symNormal 0x0E, .symNormal 0x20, .symNormal 0x7F] ∧
    [0b010000000, 0b010001010, 0b010001100, 0b010001101, 0b011111111, 0b100000000, 0b100001010, 0b111111111].map decodeSymbol =
      [.symHigh 0, .symHigh 0x0A, .symHigh 0x0C, .symHigh 0x0D, .symHigh 0x7F, .symEof 0, .symEof 0x0A, .symEof 0xFF] := by decide

/-- V-MD-1 to V-MD-10: VERBOSE, EFFECT_MODE, SCROLL_MODE, STATIC_EN, DATE_OVERLAY, EXIT_ON_EOF from bit 7 down (rule R58). -/
theorem test_decode_cfg_modes :
    [0b00000000, 0b00000001, 0b00001000, 0b00010000, 0b00100000, 0b01000000, 0b00000100, 0b00000010].map decodeCfg =
      [.modeLeft false false, .modeLeft true false, .modeUp false false, .modeDown false false, .modeSnow false 0 false,
       .modeFw false 0 false, .modeStatic false 0 false, .modeDate false 0 false] ∧
    [0b00001100, 0b10000100, 0b10000011, 0b00101001].map decodeCfg =
      [.modeStatic false 1 false, .modeStatic false 0 true, .modeDate true 0 true, .modeSnow true 1 false] := by decide

/-- V-MD-5, V-MD-8, V-MD-11 to V-MD-18 and V-MD-23. -/
theorem test_decode_cfg_refusals :
    [0b00011000, 0b01100000, 0b00000110, 0b00100100, 0b01000100, 0b00100010, 0b01000010].map decodeCfg =
      [.modeRefuseBadScroll false false false 0 false, .modeRefuseBadEffect false false false 0 false,
       .modeRefuseStaticDate false 0 0 false, .modeRefuseStaticSnow false 0 false, .modeRefuseStaticFw false 0 false,
       .modeRefuseDateSnow false 0 false, .modeRefuseDateFw false 0 false] ∧
    [0b00111000, 0b01111000, 0b01100101, 0b00111010].map decodeCfg =
      [.modeRefuseBadScroll false false false 1 false, .modeRefuseBadScroll false false false 3 false,
       .modeRefuseBadEffect true false true 0 false, .modeRefuseBadScroll false true false 1 false] := by decide

/-- How many of the 256 words each row of rule R61 matches (`95_test_vectors.md` section 2.4). -/
def rowOfCfg (w : BitVec 8) : Nat :=
  match decodeCfg w with
  | .modeRefuseBadScroll _ _ _ _ _ => 1
  | .modeRefuseBadEffect _ _ _ _ _ => 2
  | .modeRefuseStaticDate _ _ _ _ => 3
  | .modeRefuseStaticSnow _ _ _ => 4
  | .modeRefuseStaticFw _ _ _ => 5
  | .modeRefuseDateSnow _ _ _ => 6
  | .modeRefuseDateFw _ _ _ => 7
  | .modeStatic _ _ _ => 8
  | .modeDate _ _ _ => 9
  | .modeSnow _ _ _ => 10
  | .modeFw _ _ _ => 11
  | .modeLeft _ _ => 12
  | .modeUp _ _ => 13
  | .modeDown _ _ => 14
  | _ => 0

theorem test_cfg_row_counts :
    ((List.range 15).map fun r => (List.range 256).countP fun w => rowOfCfg (BitVec.ofNat 8 w) == r) =
      [0, 64, 48, 36, 12, 12, 12, 12, 12, 12, 12, 12, 4, 4, 4] := by decide +kernel

/-- Rule R62. -/
theorem test_decode_phases :
    [0b0000, 0b0001, 0b0010, 0b0011, 0b0100, 0b0101, 0b0110, 0b0111, 0b1000, 0b1001, 0b1010, 0b1011, 0b1100].map
        (fun w => decodePhase w) =
      [.ok .phaseRowA, .ok .phaseRowB, .ok .phaseRowC, .ok .phaseData, .ok .phaseClkH, .ok .phaseClkL, .ok .phaseStbH, .ok .phaseStbL,
       .ok .phasePost, .ok .phaseTick, .ok .phaseRdL, .ok .phaseRdV, .ok .phaseHalt] := by rfl

theorem test_decode_unused_phases : [13, 14, 15].map (fun w => decodePhase w) = List.replicate 3 (.error .unusedPhase) := by rfl

theorem test_decode_refuses_bits_above : decode .lineEvent [0x10] = .error .bitsAboveFormat ∧
    decode .inputSymbol [0x00, 0x02] = .error .bitsAboveFormat := ⟨rfl, rfl⟩

theorem test_decode_refuses_length : decode .cfg [] = .error .wrongLength ∧ decode .inputSymbol [0x0A] = .error .wrongLength :=
  ⟨rfl, rfl⟩

/-- The host's numbering: one byte below 16 is a PHASE code, from 16 on a CFG word; two bytes are a symbol. -/
theorem test_decode_table_word :
    decodeTableWord 8 3 = some .phaseData ∧ decodeTableWord 8 13 = none ∧ decodeTableWord 8 0x10 = some (.modeDown false false) ∧
    decodeTableWord 8 0x60 = some (.modeRefuseBadEffect false false false 0 false) ∧ decodeTableWord 16 0x100 = some (.symEof 0) ∧
    decodeTableWord 16 0x00D = some .symCr ∧ decodeTableWord 16 0x200 = none := by decide

/-! ## Traces (rules R55, R66, R69) -/

theorem test_event_text : eventText ⟨.rowc, true⟩ = "SET ROWC, 1" ∧ eventOfText "SET STB, 0" = some ⟨.stb, false⟩ := by decide

theorem test_decode_trace : decodeTrace [0x3, 0x1, 0x0] = .ok (shiftEvents true) ∧ decodeTrace [0x5, 0xC] = .error .spellsNoEvent :=
  ⟨rfl, rfl⟩

/-- `CHARBITS` of FONT_T[0x41][1] = 0x0B sends 000010 (V-FT-1, V-SC-12). -/
theorem test_char_bits :
    traceCodes (charBitsEvents 0x0B) = [2, 1, 0, 2, 1, 0, 2, 1, 0, 2, 1, 0, 3, 1, 0, 2, 1, 0] := by decide

/-- `ROWSEL` (rule R89's table). -/
theorem test_row_sel :
    [0, 1, 2, 3, 4, 5, 6].map (fun p => traceCodes (rowSelEvents p)) =
      [[6, 8, 0xA], [7, 8, 0xA], [6, 9, 0xA], [7, 9, 0xA], [6, 8, 0xB], [7, 8, 0xB], [6, 9, 0xB]] := by decide

/-! ## Font lookup -/

/-- V-FT-1 to V-FT-9. -/
theorem test_glyph_row :
    glyphRow (paramsT 15) 0x41 1 = some 0x0B ∧ glyphRow (paramsT 15) 0x41 6 = some 0x1F ∧ glyphRow (paramsT 15) 0x20 4 = some 0x00 ∧
    glyphRow (paramsT 15) 0x6F 0 = some 0xBF ∧ glyphRow (paramsT 15) 0x8A 2 = some 0x00 ∧ glyphRow (paramsT 15) 0x7F 0 = some 0xFF ∧
    glyphRow (paramsT 15) 0xC1 3 = some 0x00 ∧ glyphRow (paramsT 15) 0x41 7 = none := by decide +kernel

/-! ## Line driver -/

/-- V-LD-2: `SET SCLK, 1` is code 0x1. -/
theorem test_set_sclk : after (exec (.setSclk true) base) (fun t => (t.lv.sclk, traceCodes t.trace)) = some (some true, [0x1]) := by decide

/-- V-LD-4, and V-LD-13: the event is emitted although the level stands already. -/
theorem test_set_sdata :
    after (exec (.setSdata true) { base with lv := { base.lv with sdata := some true } }) (fun t => (t.lv.sdata, traceCodes t.trace)) =
      some (some true, [0x3]) := by decide

/-- V-LD-5. -/
theorem test_set_stb : after (exec (.setStb false) base) (fun t => (t.lv.stb, traceCodes t.trace)) = some (some false, [0x4]) := by decide

/-- V-LD-8. -/
theorem test_set_rowa : after (exec (.setRowa true) base) (fun t => (t.lv.rowa, traceCodes t.trace)) = some (some true, [0x7]) := by decide

/-- V-LD-9. -/
theorem test_set_rowb : after (exec (.setRowb false) base) (fun t => (t.lv.rowb, traceCodes t.trace)) = some (some false, [0x8]) := by decide

/-- V-LD-12. -/
theorem test_set_rowc : after (exec (.setRowc true) base) (fun t => (t.lv.rowc, traceCodes t.trace)) = some (some true, [0xB]) := by decide

/-! ## Scan phases -/

/-- Rule R91's example: p = 3 emits 0x7, and the next phase is ROW_B. -/
theorem test_row_a : after (exec .phaseRowA { base with p := 3 }) (fun t => (traceCodes t.trace, t.phase)) = some ([0x7], 1) := by decide

/-- Rule R92's example: p = 3 emits 0x9. -/
theorem test_row_b : after (exec .phaseRowB { base with p := 3 }) (fun t => (traceCodes t.trace, t.phase)) = some ([0x9], 2) := by decide

/-- Rule R93's example: p = 3 emits 0xA; c = 45 and b = 7 (V-SC-8). -/
theorem test_row_c :
    after (exec .phaseRowC { base with p := 3, c := 0, b := 2 }) (fun t => (traceCodes t.trace, t.c, t.b, t.phase)) =
      some ([0xA], 45, 7, 3) := by decide

/-- Rule R94's example: TB[45] = 0xC1 is sent as glyph 0, so p = 0, b = 7 emits 0x2. -/
theorem test_data_normalizes :
    after (exec .phaseData { base with tb := [(45, 0xC1)] }) (fun t => (traceCodes t.trace, t.phase)) = some ([0x2], 4) := by
  decide +kernel

/-- V-SC-12: TB[45] = 0x41, pass 0: the fifth bit (b = 3) of FONT_T[0x41][1] = 0x0B is 1. -/
theorem test_data_sends_bit :
    after (exec .phaseData { base with tb := [(45, 0x41)], b := 3 }) (fun t => traceCodes t.trace) = some [0x3] ∧
    after (exec .phaseData { base with tb := [(45, 0x41)], b := 2 }) (fun t => traceCodes t.trace) = some [0x2] := by decide +kernel

/-- Rule R95's example. -/
theorem test_clk_h : after (exec .phaseClkH base) (fun t => (traceCodes t.trace, t.lv.sclk, t.phase)) = some ([0x1], some true, 5) := by
  decide

/-- V-SC-10 and V-SC-9. -/
theorem test_clk_l :
    after (exec .phaseClkL { base with b := 2, c := 45 }) (fun t => (t.c, t.b, t.phase)) = some (44, 7, 3) ∧
    after (exec .phaseClkL { base with b := 2, c := 0 }) (fun t => (traceCodes t.trace, t.phase)) = some ([0x0], 6) := by decide

/-- Rule R97's example. -/
theorem test_stb_h : after (exec .phaseStbH base) (fun t => (traceCodes t.trace, t.phase)) = some ([0x5], 7) := by decide

/-- V-SC-11, and rule R98 for p = 5. -/
theorem test_stb_l :
    after (exec .phaseStbL { base with p := 6 }) (fun t => (traceCodes t.trace, t.phase, t.p)) = some ([0x4], 8, 6) ∧
    after (exec .phaseStbL { base with p := 5 }) (fun t => (t.phase, t.p)) = some (0, 6) := by decide

/-! ## POST, TICK, HALT -/

/-- V-PO-1 to V-PO-6. -/
theorem test_post_threshold :
    let post (m : BitVec 3) (ctr : Nat) (d1 d2 : BitVec 32) (lines : BitVec 2) :=
      after (exec .phasePost { base with mode := m, refreshCtr := ctr, scrollDelay := d1, threeLineDelay := d2, lineCtr := lines, p := 6 })
        (fun t => (t.refreshCtr, t.phase, t.p))
    [post 4 39 40 0 0, post 4 38 40 0 0, post 5 0 0 0 0, post 5 1 2 3 3, post 5 4 2 3 3, post 4 1 2 3 0] =
      [some (0, 9, 6), some (39, 0, 0), some (0, 9, 6), some (2, 0, 0), some (0, 9, 6), some (0, 9, 6)] := by decide

/-- V-PO-7 to V-PO-10: no count in STATIC or when frozen; the sum is exact above 32 bits. -/
theorem test_post_exact :
    let post (m : BitVec 3) (fr : Bool) (ctr : Nat) (d1 d2 : BitVec 32) (lines : BitVec 2) :=
      after (exec .phasePost { base with
        mode := m, frozen := fr, refreshCtr := ctr, scrollDelay := d1, threeLineDelay := d2, lineCtr := lines, p := 6 })
        (fun t => (t.refreshCtr, t.phase))
    [post 0 false 0 0 0 0, post 6 true 7 2 0 1, post 6 false 0xFFFFFFFF 0xFFFFFFFF 1 3, post 6 false 0 0xFFFFFFFF 0xFFFFFFFF 3] =
      [some (0, 0), some (7, 0), some (0, 9), some (1, 0)] := by decide

/-- V-DATE-1; then 0x00, and the next phase is ROW_A with p = 0. -/
theorem test_tick_date :
    after (exec .phaseTick { base with mode := 1, p := 6, clockScript := [⟨5, 900⟩] })
        (fun t => (slots t.tb 0 46, t.phase, t.p, t.clockScript)) =
      some
        ((codesOf [' ', ' ', '1', '1', '/', '1', '1', '/', '2', '0', '2', '6', ' ', ' ', ' ',
            ' ', ' ', ' ', '1', '2', ':', '0', '0', ':', '0', '5', ' ', ' ', ' ', ' ',
            ' ', ' ', ' ', 'W', 'e', 'd', 'n', 'e', 's', 'd', 'a', 'y', ' ', ' ', ' ']).map byteOfCode ++ [0x00],
          0, 0, []) := by decide +kernel

/-- Rule R121 with other choices of what it leaves open: "5. 3.2026" at the right end, a month padded with a space; and a year in
full between separators that fill the line, the second of them cut. -/
theorem test_date_field :
    (List.range 15).map (paddedCode 15
        (dateField { dateT with
          daySeparator := labelOf 15 [0x2E], monthSeparator := labelOf 15 [0x2E], padDay := none, padMonth := some 0x20,
          yearDigitsLessOne := none } { readingT with day := 5, month := 3 })) =
      codesOf [' ', ' ', ' ', ' ', ' ', ' ', '5', '.', ' ', '3', '.', '2', '0', '2', '6'] ∧
    dateField { dateT with
        daySeparator := labelOf 15 (List.replicate 5 0x2D), monthSeparator := labelOf 15 (List.replicate 5 0x2E),
        yearDigitsLessOne := none } readingT =
      codesOf ['1', '1', '-', '-', '-', '-', '-', '1', '1', '.', '.', '2', '0', '2', '6'] := by decide +kernel

/-- V-SNOW-1, tick 1: draws 50, then 49 × 14 with RAND_MAX = 99. -/
theorem test_tick_snow :
    after (exec .phaseTick { base with params := paramsT 99, mode := 2, p := 6, drawScript := 50 :: List.replicate 14 49 })
        (fun t => slots t.tb 0 46) =
      some (0x20 :: List.replicate 14 0x2A ++ List.replicate 15 0x20 ++ List.replicate 15 0x5E ++ [0x20]) := by decide +kernel

/-- V-FW-1: tracers at 15 and 22. -/
theorem test_tick_fw_tracers :
    after (exec .phaseTick { base with mode := 3, drawScript := [0, 1, 1, 1, 1, 1, 1, 0, 1, 1, 1, 1, 1, 1, 15] })
        (fun t => (slots t.tb 15 15, t.fwPhase, slots t.tb 30 15)) =
      some (0x2A :: List.replicate 6 0x20 ++ 0x2A :: List.replicate 7 0x20, true, List.replicate 15 0x5F) := by decide +kernel

/-- V-FW-5: the burst. -/
theorem test_tick_fw_bursts :
    after (exec .phaseTick { base with mode := 3, fwPhase := true, tb := [(15, 0x2A)] })
        (fun t => (slots t.tb 0 30, t.fwPhase, t.drawCtr)) =
      some (0x6F :: List.replicate 29 0x20, false, 0) := by decide +kernel

/-- Rule R123's example: TICK in LEFT goes to RD_L. -/
theorem test_tick_left : after (exec .phaseTick { base with p := 6 }) (fun t => (t.phase, t.tb)) = some (10, []) := by decide

/-- Rule R125's example: line_ctr = 3 wraps, the lines move up, the bottom line is 0x00, k = 0. -/
theorem test_tick_up :
    after (exec .phaseTick { base with mode := 5, lineCtr := 3, k := 9, tb := [(0, 0x41), (15, 0x42), (44, 0x43)] })
        (fun t => (t.lineCtr, t.k, t.phase, t.tb.read 0 :: t.tb.read 29 :: slots t.tb 30 15)) =
      some (0, 0, 11, 0x42 :: 0x43 :: List.replicate 15 0x00) := by decide +kernel

/-- V-DN-3: the lines move down, the top line is 0x00. -/
theorem test_tick_down :
    after (exec .phaseTick { base with mode := 6, k := 9, tb := [(0, 0x41), (15, 0x42), (44, 0x43)] })
        (fun t => (t.k, t.phase, t.tb.read 15 :: t.tb.read 30 :: t.tb.read 44 :: slots t.tb 0 15)) =
      some (0, 11, 0x41 :: 0x42 :: 0x20 :: List.replicate 15 0x00) := by decide +kernel

/-- V-EX-4: in HALT no step is enabled. -/
theorem test_halt : nextOf (step { base with phase := 12 }) = none := by decide

/-! ## Reads -/

/-- V-LE-1: "A" goes into slots 44 and 45. -/
theorem test_rd_l_stores :
    after (exec .phaseRdL { base with phase := 10, p := 6, inScript := [0x041] })
        (fun t => (slots t.tb 43 3, t.phase, t.p, t.inScript)) =
      some ([0x20, 0x41, 0x41], 0, 0, []) := by decide +kernel

/-- V-LE-4: end-of-input with EXIT_ON_EOF = 1 halts; V-EX-3: without a symbol nothing changes. -/
theorem test_rd_l_eof_and_wait :
    after (exec .phaseRdL { base with phase := 10, cfg := 0x01, inScript := [0x100] }) (fun t => (t.phase, t.frozen)) = some (12, false) ∧
    nextOf (exec .phaseRdL { base with phase := 10 }) = some { base with phase := 10 } := ⟨by decide, rfl⟩

/-- V-UP-6. -/
theorem test_rd_v_fifteenth :
    after (exec .phaseRdV { base with mode := 5, phase := 11, p := 6, k := 14, lineCtr := 1, inScript := [0x05A] })
        (fun t => (t.tb.read 44, t.k, t.wrapPending, t.lineCtr, [t.phase.toNat, t.p.toNat])) =
      some (0x5A, 15, true, 2, [0, 0]) := by decide

/-- Rule R113's example: FF in DOWN. -/
theorem test_rd_v_form_feed :
    after (exec .phaseRdV { base with mode := 6, phase := 11, p := 6, lineCtr := 2, tb := [(0, 0x41), (44, 0x42)], inScript := [0x00C] })
        (fun t => (t.tb, t.lineCtr, t.phase, t.p)) =
      some ([], 0, 0, 0) := by decide +kernel

/-- Rule R110's example: EOF in LEFT freezes. -/
theorem test_sym_eof :
    after (exec (.symEof 0) { base with phase := 10, p := 6, inScript := [0x100] }) (fun t => (t.frozen, t.phase, t.p, t.inScript)) =
      some (true, 0, 0, []) := by decide

/-- Rule R111: LF is skipped in LEFT; in UP it ends the fill, or is absorbed after a full line (rule R133). -/
theorem test_sym_lf :
    after (exec .symLf { base with phase := 10 }) (fun t => t.phase) = some 10 ∧
    after (exec .symLf { base with mode := 5, phase := 11, k := 2, lineCtr := 1 }) (fun t => (t.lineCtr, t.phase)) = some (2, 0) ∧
    after (exec .symLf { base with mode := 5, phase := 11, wrapPending := true, lineCtr := 1 })
      (fun t => (t.lineCtr, t.phase, t.wrapPending)) = some (1, 11, false) := by decide

/-- Rule R112's example: CR in UP is skipped and not counted. -/
theorem test_sym_cr :
    after (exec .symCr { base with mode := 5, phase := 11, k := 4, wrapPending := true }) (fun t => (t.k, t.phase, t.wrapPending)) =
      some (4, 11, true) := by decide

/-- V-LE-2: FF is stored as code 12 in LEFT. -/
theorem test_sym_ff : after (exec .symFf { base with phase := 10 }) (fun t => (t.tb.read 44, t.tb.read 45)) = some (0x0C, 0x0C) := by
  decide +kernel

/-- Rule R114's example: 0xC1 is scrolled in as 0x00. -/
theorem test_sym_high : after (exec (.symHigh 0x41) { base with phase := 10 }) (fun t => t.tb.read 45) = some 0x00 := by decide +kernel

/-- Rule R115's example: 'A' at k = 0 in UP. -/
theorem test_sym_normal :
    after (exec (.symNormal 0x41) { base with mode := 5, phase := 11 }) (fun t => (t.tb.read 30, t.k, t.phase)) =
      some (0x41, 1, 11) := by decide

/-! ## Start (V-RS-1, V-ST-2, V-ST-4) -/

theorem test_mode_static :
    after (exec (.modeStatic false 0 false) { base with started := false, staticText := [0x0A, 0xC8, 0x42] })
        (fun t => (slots t.tb 0 4, t.mode, t.tb.read 45)) =
      some ([0x0A, 0x00, 0x42, 0x20], 0, 0x20) := by decide +kernel

theorem test_mode_rows :
    [Instr.modeDate false 0 false, .modeSnow false 0 false, .modeFw false 0 false, .modeLeft true false, .modeUp false false,
      .modeDown false false].map (fun i => after (exec i { base with p := 6, phase := 8, tb := [(3, 0x41)] })
        (fun t => (t.mode, t.phase.toNat + t.p.toNat + t.tb.length))) =
      [some (1, 0), some (2, 0), some (3, 0), some (4, 0), some (5, 0), some (6, 0)] := by
  decide

theorem test_mode_refusals :
    exec (decodeCfg 0x18) base = .refused .cfgBadScroll ∧ exec (decodeCfg 0x60) base = .refused .cfgBadEffect ∧
    exec (decodeCfg 0x06) base = .refused .cfgStaticDate ∧ exec (decodeCfg 0x24) base = .refused .cfgStaticEffect ∧
    exec (decodeCfg 0x44) base = .refused .cfgStaticEffect ∧ exec (decodeCfg 0x22) base = .refused .cfgDateEffect ∧
    exec (decodeCfg 0x42) base = .refused .cfgDateEffect := ⟨rfl, rfl, rfl, rfl, rfl, rfl, rfl⟩

/-- A placed word is the next step's instruction: a symbol, a CFG word, a PHASE code. -/
theorem test_with_fetch_word :
    after (step (State.reset.withFetchWord 16 0x041)) (fun t => t.tb.read 45) = some 0x41 ∧
    after (step (State.reset.withFetchWord 8 0x10)) (fun t => (t.mode, t.started)) = some (6, true) ∧
    after (step (State.reset.withFetchWord 8 4)) (fun t => t.phase) = some 5 := by decide +kernel

/-! ## Witnesses: for each statement, states and operands that meet its hypotheses together, at the edges of its clauses -/

/-- `base` in a given phase. -/
def inPhase (w : BitVec 4) : State := { base with phase := w }

/-- A read phase of LEFT, UP or DOWN, with the given symbols offered. -/
def reading (mode : BitVec 3) (input : List (BitVec 9)) : State :=
  { base with mode := mode, phase := if mode = 4 then 10 else 11, p := 6, inScript := input }

/-- Of a run in a mode without input. -/
def runningIn (mode : BitVec 3) (cfg : BitVec 8) : State := { base with mode := mode, cfg := cfg }

/-- Fifteen ordinary characters. -/
def fifteen : List Byte := [0x41, 0x42, 0x43, 0x44, 0x45, 0x46, 0x47, 0x48, 0x49, 0x4A, 0x4B, 0x00, 0x0B, 0x0E, 0x7F]

theorem base_inv : base.Inv := ⟨rfl, by constructor <;> decide, by constructor <;> decide⟩

theorem base_lines : base.LinesAgree := by constructor <;> decide

theorem reading_inv : (reading 4 [0x041]).Inv := ⟨rfl, by constructor <;> decide, by constructor <;> decide⟩

theorem frozen_inv : { base with frozen := true }.Inv := ⟨rfl, by constructor <;> decide, by constructor <;> decide⟩

theorem halted_inv : { base with phase := 12, p := 6, cfg := 0x01 }.Inv :=
  ⟨rfl, by constructor <;> decide, by constructor <;> decide⟩

theorem running_inv :
    (runningIn 0 0x04).Inv ∧ (runningIn 1 0x02).Inv ∧ (runningIn 2 0x20).Inv ∧ (runningIn 3 0x40).Inv :=
  ⟨⟨rfl, by constructor <;> decide, by constructor <;> decide⟩,
   ⟨rfl, by constructor <;> decide, by constructor <;> decide⟩,
   ⟨rfl, by constructor <;> decide, by constructor <;> decide⟩,
   ⟨rfl, by constructor <;> decide, by constructor <;> decide⟩⟩

theorem witness_EncodedInstructionDecodesBack :
    WellFormed (.modeUp true false) = true ∧ WellFormed (.symNormal 11) = true ∧ WellFormed (.modeSnow true 2 true) = true ∧
    WellFormed (.setRowc true) = true ∧ WellFormed .phaseHalt = true := by decide

theorem witness_DecodedWordEncodesBack : decode .inputSymbol [0xFF, 0x01] = .ok (.symEof 0xFF) ∧ decode .phase [12] = .ok .phaseHalt :=
  ⟨rfl, rfl⟩

theorem witness_StepRunsTheDecodedInstruction :
    ((inPhase 12).started = true ∧ decodePhase (inPhase 12).phase = .ok .phaseHalt) ∧ { base with started := false }.started = false :=
  ⟨⟨rfl, rfl⟩, rfl⟩

theorem witness_UnusedPhaseCodesAreStuck :
    ((inPhase 13).started = true ∧ 13 ≤ (inPhase 13).phase.toNat) ∧ ((inPhase 15).started = true ∧ 13 ≤ (inPhase 15).phase.toNat) := by
  decide

theorem witness_ReadPhaseRunsTheRowOfTheSymbol :
    ((reading 4 [0x1FF]).started = true ∧ (reading 4 [0x1FF]).inScript = [0x1FF] ∧ (reading 4 [0x1FF]).phase = 10) ∧
    ((reading 5 [0x000]).started = true ∧ (reading 5 [0x000]).inScript = [0x000] ∧ (reading 5 [0x000]).phase = 11) := by decide

theorem witness_ReadPhaseWaitsWithoutSymbol :
    ((reading 4 []).started = true ∧ (reading 4 []).phase = 10 ∧ (reading 4 []).inScript = []) ∧
    ((reading 6 []).started = true ∧ (reading 6 []).phase = 11 ∧ (reading 6 []).inScript = []) := by decide

theorem witness_StepEmitsAtMostOneLineEvent :
    (base.started = true ∧ ∃ t, step base = .next t) ∧ ((inPhase 8).started = true ∧ ∃ t, step (inPhase 8) = .next t) :=
  ⟨⟨rfl, _, rfl⟩, ⟨rfl, _, rfl⟩⟩

theorem witness_EachLineEventCostsTheSettlingTime :
    ((inPhase 7).started = true ∧ (inPhase 7).phase.toNat ≤ 7 ∧ ∃ t, step (inPhase 7) = .next t) ∧
    ((inPhase 8).started = true ∧ 7 < (inPhase 8).phase.toNat ∧ ∃ t, step (inPhase 8) = .next t) :=
  ⟨⟨rfl, by decide, _, rfl⟩, ⟨rfl, by decide, _, rfl⟩⟩

theorem witness_LineOperationDrivesItsOneLine : { base.lv with sclk := some true }.get .sclk = some true := rfl

theorem witness_GlyphRowIsTheFontByteOfTheNormalizedCode :
    (6 : Nat) ≤ 6 ∧ 127 < (0x80 : Byte).toNat ∧ ¬ 127 < (0x7F : Byte).toNat := by decide

theorem witness_DataDrivesThePixelOfItsSlot :
    ({ base with p := 6 }.p = BitVec.ofNat 3 (6 : Fin 7).val ∧ { base with p := 6 }.c.toNat ≤ 45) ∧
    ({ base with c := 0 }.p = BitVec.ofNat 3 (0 : Fin 7).val ∧ { base with c := 0 }.c.toNat ≤ 45) := by decide

theorem witness_DataAndTickStopOnlyInStatesNoRunReaches :
    45 < { base with c := 46 }.c.toNat ∧ ({ base with p := 7 }.c.toNat ≤ 45 ∧ { base with p := 7 }.p = 7) ∧
    ({ base with p := 6 }.c.toNat ≤ 45 ∧ { base with p := 6 }.p ≠ 7) ∧ { base with mode := 0 }.mode = 0 ∧
    { base with mode := 7 }.mode = 7 ∧ ({ base with mode := 1 }.mode ≠ 0 ∧ { base with mode := 1 }.mode ≠ 7) ∧
    ({ base with mode := 6 }.mode ≠ 0 ∧ { base with mode := 6 }.mode ≠ 7) := by decide

theorem witness_ClockPhasesPulseAndAdvance :
    2 < { base with b := 3 }.b.toNat ∧ ({ base with b := 2, c := 1 }.b.toNat ≤ 2 ∧ 0 < { base with b := 2, c := 1 }.c.toNat) ∧
    ({ base with b := 2, c := 0 }.b.toNat ≤ 2 ∧ { base with b := 2, c := 0 }.c.toNat = 0) := by decide

theorem witness_StrobePhasesLatchAndAdvance : { base with p := 5 }.p.toNat < 6 ∧ 6 ≤ { base with p := 6 }.p.toNat := by decide

theorem witness_RefreshEmitsTheTraceOfTheBuffer : base.started = true ∧ base.phase = 0 ∧ base.p = 0 := by decide

theorem witness_DataBitsGoOutSlot45FirstHighBitFirst : (0 : Nat) ≤ 275 ∧ (275 : Nat) ≤ 275 := by decide

theorem witness_RefreshTraceSeesOnlyNormalizedBytes : (6 : Nat) ≤ 6 ∧ 127 < (0x80 : Byte).toNat := by decide

/-- The clauses at the threshold, one refresh before it, in STATIC and frozen; in UP at the full page and one line before it. -/
theorem witness_PostCountsTheRefreshAndGatesTheTick :
    (∃ T : Nat, T = (reading 5 []).scrollDelay.toNat + (if ((reading 5 []).mode = 5 ∨ (reading 5 []).mode = 6) ∧
      (reading 5 []).lineCtr = 3 then (reading 5 []).threeLineDelay.toNat else 0)) ∧
    { base with mode := 0 }.mode = 0 ∧ { base with frozen := true }.frozen = true ∧
    (base.mode ≠ 0 ∧ base.frozen = false ∧ 40 ≤ { base with refreshCtr := 39 }.refreshCtr + 1) ∧
    (base.mode ≠ 0 ∧ base.frozen = false ∧ { base with refreshCtr := 38 }.refreshCtr + 1 < 40) := ⟨⟨_, rfl⟩, by decide⟩

theorem witness_HaltHasNoStep : (inPhase 12).started = true ∧ (inPhase 12).phase = 12 := by decide

theorem witness_HaltIsEnteredOnlyByEndOfInput :
    ∃ s t : State, s.started = true ∧ step s = .next t ∧ t.phase = 12 :=
  ⟨{ reading 4 [0x100] with cfg := 0x01 }, _, rfl, rfl, rfl⟩

/-- In any reading and layout the state has; a layout that gives the year digits and one that does not, in a year of 11 digits at
most. -/
theorem witness_DateTickRewritesTheBuffer :
    (∃ (s : State) (r : ClockReading) (L : DateLayout), s.tb.wf = true ∧ s.mode = 1 ∧
      (r, L) = readingAndLayout s.params (nextInstant s) ∧ L.yearDigitsLessOne = some 3 ∧
      L.daySeparator.codes.length + L.monthSeparator.codes.length + 4 ≤ 11) ∧
    (∃ (s : State) (r : ClockReading) (L : DateLayout), s.tb.wf = true ∧ s.mode = 1 ∧
      (r, L) = readingAndLayout s.params (nextInstant s) ∧ L.yearDigitsLessOne = none ∧ r.year < 10 ^ 11 ∧ r.year ≠ 0) :=
  ⟨⟨{ base with mode := 1, clockScript := [⟨5, 0⟩] }, readingT, dateT, rfl, rfl, rfl, rfl, by decide⟩,
   ⟨{ base with
      mode := 1, clockScript := [⟨5, 0⟩],
      params := { paramsT 15 with dateTable := [(5, readingT, { dateT with yearDigitsLessOne := none })] } },
    readingT, { dateT with yearDigitsLessOne := none }, rfl, rfl, rfl, rfl, by decide, by decide⟩⟩

/-- Two buffers, two instants of one second. -/
theorem witness_DateTickIsDeterminedByTheSecond :
    ∃ s s' t t' : State, s.tb.wf = true ∧ s'.tb.wf = true ∧ s.mode = 1 ∧ s'.mode = 1 ∧ s.params = s'.params ∧
      (nextInstant s).second = (nextInstant s').second ∧ nextInstant s ≠ nextInstant s' ∧ s.tb ≠ s'.tb ∧
      exec .phaseTick s = .next t ∧ exec .phaseTick s' = .next t' :=
  ⟨{ base with mode := 1, clockScript := [⟨5, 0⟩] }, { base with mode := 1, clockScript := [⟨5, 1⟩], tb := [(0, 0x41)] }, _, _,
   rfl, rfl, rfl, rfl, rfl, rfl, by decide, by decide, rfl, rfl⟩

theorem witness_SnowTickLetsTheTopLineFall : (runningIn 2 0x20).tb.wf = true ∧ (runningIn 2 0x20).mode = 2 := by decide

theorem witness_FireworksTickAlternatesTracersAndBursts :
    ((runningIn 3 0x40).tb.wf = true ∧ (runningIn 3 0x40).mode = 3 ∧ (runningIn 3 0x40).fwPhase = false) ∧
    ({ base with mode := 3, fwPhase := true }.tb.wf = true ∧ { base with mode := 3, fwPhase := true }.mode = 3 ∧
      { base with mode := 3, fwPhase := true }.fwPhase = true) := by decide

theorem witness_ScrollTicksMoveTheLines :
    base.tb.wf = true ∧ base.mode = 4 ∧ { base with mode := 5, lineCtr := 3 }.mode = 5 ∧ { base with mode := 6, lineCtr := 2 }.mode = 6 := by
  decide

/-- Clause by clause: EOF with and without exit, LF, CR, and stored bytes 0, FF, 127, 128 and 255. -/
theorem witness_ScrollLeftReadActsOnTheSymbol :
    (reading 4 [0x100]).tb.wf = true ∧ (reading 4 [0x100]).inScript = [0x100] ∧
    (256 ≤ (0x100 : BitVec 9).toNat ∧ { reading 4 [0x100] with cfg := 0x01 }.cfg.getLsbD 0 = true) ∧
    (256 ≤ (0x1FF : BitVec 9).toNat ∧ (reading 4 [0x1FF]).cfg.getLsbD 0 = false) ∧ (0x00A : BitVec 9).toNat = 10 ∧
    (0x00D : BitVec 9).toNat = 13 ∧
    ([0x000, 0x00C, 0x07F, 0x080, 0x0FF].all fun x : BitVec 9 => x.toNat < 256 && x.toNat != 10 && x.toNat != 13) = true := by decide

/-- Clause by clause, in UP (base 30) and DOWN (base 0), at k = 0, 13 and 14. -/
theorem witness_LineFillReadActsOnTheSymbol :
    ((reading 5 [0x041]).tb.wf = true ∧ (reading 5 [0x041]).inScript = [0x041] ∧ { reading 5 [0x041] with k := 14 }.k.toNat ≤ 14 ∧
      30 = (if (reading 5 [0x041]).mode = 5 then 30 else 0)) ∧
    ((reading 6 [0x041]).k.toNat ≤ 14 ∧ 0 = (if (reading 6 [0x041]).mode = 5 then 30 else 0)) ∧
    (reading 5 []).lineCtr.toNat ≤ 2 ∧ { reading 5 [] with lineCtr := 2 }.lineCtr.toNat ≤ 2 ∧
    (256 ≤ (0x100 : BitVec 9).toNat ∧ { reading 5 [] with cfg := 0x09 }.cfg.getLsbD 0 = true) ∧
    (256 ≤ (0x1FF : BitVec 9).toNat ∧ (reading 5 []).cfg.getLsbD 0 = false) ∧ (0x00D : BitVec 9).toNat = 13 ∧
    ((0x00A : BitVec 9).toNat = 10 ∧ { reading 5 [] with wrapPending := true }.k = 0 ∧
      { reading 5 [] with wrapPending := true }.wrapPending = true) ∧
    ¬ ((reading 5 []).k = 0 ∧ (reading 5 []).wrapPending = true) ∧ (0x00C : BitVec 9).toNat = 12 ∧
    ([0x000, 0x07F, 0x080, 0x0FF].all fun x : BitVec 9 =>
      x.toNat < 256 && x.toNat != 10 && x.toNat != 12 && x.toNat != 13) = true ∧
    { reading 5 [] with k := 13 }.k.toNat < 14 ∧ { reading 5 [] with k := 14 }.k.toNat = 14 := by decide

theorem witness_SymbolRowsAreTheReadOfTheirSymbol :
    (formatOf (.symNormal 0x41) = .inputSymbol ∧ WellFormed (.symNormal 0x41) = true) ∧ (reading 4 []).phase = 10 ∧
    (reading 5 []).phase = 11 := by decide

theorem witness_SymbolRowsAreRefusedOutsideTheReadPhases :
    formatOf .symLf = .inputSymbol ∧ (inPhase 9).phase ≠ 10 ∧ (inPhase 9).phase ≠ 11 ∧ (inPhase 12).phase ≠ 11 := by decide

theorem witness_FifteenCharactersFillALine :
    (reading 5 (symbolsOf fifteen)).started = true ∧ (reading 5 (symbolsOf fifteen)).phase = 11 ∧
    (reading 5 (symbolsOf fifteen)).k = 0 ∧ (reading 5 (symbolsOf fifteen)).tb.wf = true ∧
    30 = (if (reading 5 (symbolsOf fifteen)).mode = 5 then 30 else 0) ∧ fifteen.length = 15 ∧
    (∀ x ∈ fifteen, x.toNat ≤ 127 ∧ x.toNat ≠ 10 ∧ x.toNat ≠ 12 ∧ x.toNat ≠ 13) ∧
    (reading 5 (symbolsOf fifteen)).inScript = symbolsOf fifteen ++ [] := by decide

theorem witness_RefusedConfigurationsNeverStart :
    ∃ (sc : Scenario) (r : Refusal), sc.wf (paramsT 15) = true ∧ exec (decodeCfg sc.cfg) (sc.initial (paramsT 15)) = .refused r :=
  ⟨{ cfg := 0x18, draws := [0, 15] }, _, rfl, rfl⟩

/-- The state before the start, and the state the start makes of it. -/
theorem witness_FirstStepIsRowSelectAOfPassZero :
    ∃ (s t u : State) (w : BitVec 8) (mode : BitVec 3), s.StartsRun w mode t ∧ step t = .next u :=
  ⟨{ base with started := false }, base, _, 0x00, 4, ⟨rfl, fun i => by rw [if_neg (by simp)]; rfl⟩, rfl⟩

/-- A started block with a step, and a move of each kind that changes something. -/
theorem witness_ConfigurationIsFixedFromTheStartOn :
    (base.started = true ∧ ∃ t, step base = .next t) ∧
    (∃ t, { base with started := false }.afterMove (.configure 0x08 1 2 [0x41]) = some t ∧ t.cfg ≠ base.cfg) ∧
    (∃ t, (reading 4 []).afterMove (.offer 0x041) = some t ∧ t.inScript ≠ (reading 4 []).inScript) ∧
    (∃ t, { base with phase := 9, mode := 1 }.afterMove (.answerNow ⟨5, 0⟩) = some t ∧ t.clockScript ≠ base.clockScript) ∧
    (∃ t, { base with phase := 9, mode := 3 }.afterMove (.supplyDraw 15) = some t ∧ t.drawScript ≠ base.drawScript) :=
  ⟨⟨rfl, _, rfl⟩, ⟨_, rfl, by decide⟩, ⟨_, rfl, by decide⟩, ⟨_, rfl, by decide⟩, ⟨_, rfl, by decide⟩⟩

/-- Rule R155's second column, where the host has no move: an offer in ROW_A, in HALT and in STATIC, a draw above RAND_MAX, a draw in
the FW tick of the source's phase 2, and the configuration after the start. -/
theorem test_host_has_no_move :
    [base.afterMove (.offer 0x041), (inPhase 12).afterMove (.offer 0x041), { base with mode := 0, phase := 9 }.afterMove (.offer 0x041),
      { base with phase := 9, mode := 2 }.afterMove (.supplyDraw 16),
      { base with phase := 9, mode := 3, fwPhase := true }.afterMove (.supplyDraw 0), base.afterMove (.configure 0x08 1 2 [])] =
      List.replicate 6 none := by decide

theorem witness_CountersAreWrittenOnlyByTheirWriters :
    ((inPhase 8).started = true ∧ ∃ t, step (inPhase 8) = .next t ∧ t.refreshCtr ≠ (inPhase 8).refreshCtr) ∧
    ((reading 5 [0x00A]).started = true ∧ ∃ t, step (reading 5 [0x00A]) = .next t ∧ t.lineCtr ≠ (reading 5 [0x00A]).lineCtr) ∧
    ({ reading 5 [0x041] with wrapPending := true }.started = true ∧ ∃ t, step { reading 5 [0x041] with wrapPending := true } = .next t ∧
      t.wrapPending ≠ { reading 5 [0x041] with wrapPending := true }.wrapPending ∧ t.k ≠ (reading 5 []).k) ∧
    ((reading 4 [0x100]).started = true ∧ ∃ t, step (reading 4 [0x100]) = .next t ∧ t.frozen ≠ (reading 4 [0x100]).frozen) :=
  ⟨⟨rfl, _, rfl, by decide⟩, ⟨rfl, _, rfl, by decide⟩, ⟨rfl, _, rfl, by decide, by decide⟩, ⟨rfl, _, rfl, by decide⟩⟩

/-- One state for each of the four places where the buffer changes. -/
theorem witness_BufferChangesOnlyBetweenRefreshes :
    (∃ s t : State, s.started = true ∧ s.tb.wf = true ∧ step s = .next t ∧ t.tb.read 45 ≠ s.tb.read 45 ∧ s.mode = 1) ∧
    (∃ s t : State, s.started = true ∧ s.tb.wf = true ∧ step s = .next t ∧ t.tb.read 44 ≠ s.tb.read 44 ∧ s.mode = 5) ∧
    (∃ s t : State, s.started = true ∧ s.tb.wf = true ∧ step s = .next t ∧ t.tb.read 45 ≠ s.tb.read 45 ∧ s.phase = 10) ∧
    (∃ s t : State, s.started = true ∧ s.tb.wf = true ∧ step s = .next t ∧ t.tb.read 44 ≠ s.tb.read 44 ∧ s.phase = 11) :=
  ⟨⟨{ base with mode := 1, phase := 9, clockScript := [⟨5, 0⟩] },
    tickDate { base with mode := 1, phase := 9, clockScript := [⟨5, 0⟩] }, rfl, rfl, rfl, by decide +kernel, rfl⟩,
   ⟨{ base with mode := 5, phase := 9 }, tickUp { base with mode := 5, phase := 9 }, rfl, rfl, rfl, by decide +kernel, rfl⟩,
   ⟨reading 4 [0x041], storeLeft 0x41 (reading 4 []), rfl, rfl, rfl, by decide +kernel, rfl⟩,
   ⟨{ reading 5 [0x041] with k := 14 }, _, rfl, rfl, rfl, by decide +kernel, rfl⟩⟩

theorem witness_VerboseHasNoEffect : base.started = true := rfl

theorem witness_SlotReadsReturnTheLastWrite : Memory.wf [(0, 0x41), (45, 0x42)] = true ∧ (0 : Nat) ≤ 45 ∧ (45 : Nat) ≤ 45 := by decide

/-- The last draw in range is taken, and the first above it is not. -/
theorem witness_DrawsAreInRange :
    ({ base with drawScript := [0, 15] }.drawScript[1]? = some 15 ∧ 15 ≤ randMax { base with drawScript := [0, 15] }.params) ∧
    ¬ 16 ≤ randMax base.params := by decide

theorem witness_EveryStartMeetsTheInvariants :
    { base with started := false }.started = false ∧ ∃ t, step { base with started := false } = .next t := ⟨rfl, _, rfl⟩

theorem witness_StepKeepsTheRunInvariant : ∃ s t : State, s.Inv ∧ step s = .next t := ⟨reading 4 [0x041], _, reading_inv, rfl⟩

theorem witness_InvariantStatesStepUnlessHalted :
    (base.Inv ∧ base.phase ≠ 12) ∧ ({ base with phase := 12, p := 6, cfg := 0x01 }.Inv ∧
      { base with phase := 12, p := 6, cfg := 0x01 }.phase = 12) := ⟨⟨base_inv, by decide⟩, ⟨halted_inv, rfl⟩⟩

theorem witness_StepKeepsTheLinesInAgreement : ∃ s t : State, s.Inv ∧ s.LinesAgree ∧ step s = .next t :=
  ⟨base, _, base_inv, base_lines, rfl⟩

theorem witness_RowSelectCodeSevenNeverAppears : base.Inv ∧ base.LinesAgree := ⟨base_inv, base_lines⟩

/-- A state with a row-select event, one with a data event and one with a strobe event. -/
theorem witness_LinesChangeOnlyWhileTheClockIsNotHigh :
    (∃ s t : State, s.Inv ∧ s.LinesAgree ∧ step s = .next t ∧ t.trace = ⟨.rowa, false⟩ :: s.trace) ∧
    (∃ s t : State, s.Inv ∧ s.LinesAgree ∧ step s = .next t ∧ ∃ v, t.trace = ⟨.sdata, v⟩ :: s.trace) ∧
    (∃ s t : State, s.Inv ∧ s.LinesAgree ∧ step s = .next t ∧ t.trace = ⟨.stb, true⟩ :: s.trace) :=
  ⟨⟨base, _, base_inv, base_lines, rfl, rfl⟩,
   ⟨{ base with phase := 3, lv := { base.lv with rowa := some false, rowb := some false, rowc := some false } }, _,
    ⟨rfl, by constructor <;> decide, by constructor <;> decide⟩, by constructor <;> decide, rfl, _, rfl⟩,
   ⟨{ base with
      phase := 6, lv := { base.lv with sclk := some false, rowa := some false, rowb := some false, rowc := some false } }, _,
    ⟨rfl, by constructor <;> decide, by constructor <;> decide⟩, by constructor <;> decide, rfl, rfl⟩⟩

theorem witness_StepKeepsLinesAsTheTraceSays : ∃ s t : State, s.started = true ∧ s.LinesFollowTrace ∧ step s = .next t :=
  ⟨base, _, rfl, fun l => by cases l <;> rfl, rfl⟩

theorem witness_StepKeepsTheLookaheadSlot : ∃ s t : State, s.Inv ∧ s.LookaheadAgrees ∧ step s = .next t :=
  ⟨reading 4 [0x041], _, reading_inv, by constructor <;> decide, rfl⟩

theorem witness_FrozenBlockRefreshesForeverAndReadsNothing :
    { base with frozen := true }.Inv ∧ { base with frozen := true }.frozen = true := ⟨frozen_inv, rfl⟩

theorem witness_ModesWithoutInputNeverReadOrHalt :
    ((runningIn 0 0x04).Inv ∧ (runningIn 0 0x04).mode = 0) ∧ ((runningIn 1 0x02).Inv ∧ (runningIn 1 0x02).mode = 1) ∧
    ((runningIn 2 0x20).Inv ∧ (runningIn 2 0x20).mode = 2) ∧ ((runningIn 3 0x40).Inv ∧ (runningIn 3 0x40).mode = 3) :=
  ⟨⟨running_inv.1, rfl⟩, ⟨running_inv.2.1, rfl⟩, ⟨running_inv.2.2.1, rfl⟩, ⟨running_inv.2.2.2, rfl⟩⟩

theorem witness_StaticTextNeverChanges : (runningIn 0 0x04).Inv ∧ (runningIn 0 0x04).mode = 0 := ⟨running_inv.1, rfl⟩

end Sys2Proof.Tests
end

section
/-! # Steps, the DATE tick and draws: the statements of `00_scope.md`

What a step does to the output lines and the trace (rule R8), what the DATE tick leaves (rules R120, R121), and the settled
statements about a step's instruction, its line events, the DATE tick and the draws. -/

namespace Sys2Proof.Machine

/-! ## The outputs: the trace and the lines -/

/-- From `s` to `t` the block emits nothing: the trace and the lines are as before. -/
structure State.Silent (s t : State) : Prop where
  trace : t.trace = s.trace
  lv : t.lv = s.lv

/-- From `s` to `t` the block emits the one line event `e`, and drives the line of `e` to its level (rule R73). -/
structure State.Emits (e : LineEvent) (s t : State) : Prop where
  trace : t.trace = e :: s.trace
  lv : t.lv = s.lv.set e.line e.level

theorem setLine_emits (l : Line) (v : Level) (s : State) : State.Emits ⟨l, v⟩ s (setLine l v s) := ⟨rfl, rfl⟩

theorem State.Silent.trans {s t u : State} (h : State.Silent s t) (hu : State.Silent t u) : State.Silent s u :=
  ⟨hu.trace.trans h.trace, hu.lv.trans h.lv⟩

theorem State.Emits.trans_silent {e : LineEvent} {s t u : State} (h : State.Emits e s t) (hu : State.Silent t u) :
    State.Emits e s u := ⟨hu.trace.trans h.trace, hu.lv.trans h.lv⟩

theorem State.Emits.get_line {e : LineEvent} {s t : State} (h : State.Emits e s t) : t.lv.get e.line = some e.level := by
  simp [h.lv]

theorem State.Emits.get_of_ne {e : LineEvent} {s t : State} (h : State.Emits e s t) {l : Line} (hl : l ≠ e.line) :
    t.lv.get l = s.lv.get l := by
  simp [h.lv, hl]

theorem advanceBit_silent (s : State) : State.Silent s (advanceBit s) := by
  unfold advanceBit
  split
  · exact ⟨rfl, rfl⟩
  · split <;> exact ⟨rfl, rfl⟩

theorem advanceRow_silent (s : State) : State.Silent s (advanceRow s) := by
  unfold advanceRow
  split <;> exact ⟨rfl, rfl⟩

theorem countRefresh_silent (s : State) : State.Silent s (countRefresh s) := by
  unfold countRefresh
  split
  · exact ⟨rfl, rfl⟩
  · dsimp only
    split <;> exact ⟨rfl, rfl⟩

theorem tickSnow_silent (s : State) : State.Silent s (tickSnow s) := by
  rw [tickSnow_eq]
  exact ⟨rfl, rfl⟩

theorem tickFw_silent (s : State) : State.Silent s (tickFw s) := by
  rw [tickFw_eq]
  split <;> exact ⟨rfl, rfl⟩

theorem eofPolicy_silent (s : State) : State.Silent s (eofPolicy s) := by
  rw [eofPolicy_eq]
  split <;> exact ⟨rfl, rfl⟩

theorem endLine_silent (s : State) : State.Silent s (endLine s) := by
  unfold endLine
  split <;> exact ⟨rfl, rfl⟩

theorem storeInLine_silent (x : Byte) (s : State) : State.Silent s (storeInLine x s) := by
  unfold storeInLine
  dsimp only
  split <;> exact ⟨rfl, rfl⟩

theorem readLeft_silent (x : SymClass) (s : State) : State.Silent s (readLeft x s) := by
  cases x with
  | eof => exact eofPolicy_silent s
  | lf | cr | ff | high | normal => exact ⟨rfl, rfl⟩

theorem readLine_silent (x : SymClass) (s : State) : State.Silent s (readLine x s) := by
  cases x with
  | eof => exact eofPolicy_silent s
  | lf => exact endLine_silent s
  | high byte | normal byte => exact storeInLine_silent byte s
  | cr | ff => exact ⟨rfl, rfl⟩

theorem consumeSymbol_silent (s : State) : State.Silent s (consumeSymbol s) := ⟨rfl, rfl⟩

/-- What a step of a started block does to the outputs: the scan phases emit one event each, the other phases none
(rules R8, R87, R163). -/
theorem StepCase.outputs {s t : State} (h : StepCase s t) :
    (s.phase.toNat ≤ 7 ∧ ∃ e, State.Emits e s t) ∨ (7 < s.phase.toNat ∧ State.Silent s t) := by
  cases h with
  | rowA h | rowB h | rowC h | data h | clkH h | stbH h => exact .inl ⟨by rw [h]; decide, _, rfl, rfl⟩
  | clkL h => exact .inl ⟨by rw [h]; decide, _, (setLine_emits ..).trans_silent (advanceBit_silent _)⟩
  | stbL h => exact .inl ⟨by rw [h]; decide, _, (setLine_emits ..).trans_silent (advanceRow_silent _)⟩
  | post h => exact .inr ⟨by rw [h]; decide, countRefresh_silent s⟩
  | tickSnow h => exact .inr ⟨by rw [h]; decide, tickSnow_silent s⟩
  | tickFw h => exact .inr ⟨by rw [h]; decide, tickFw_silent s⟩
  | tickDate h | tickLeft h | tickUp h | tickDown h => exact .inr ⟨by rw [h]; decide, rfl, rfl⟩
  | wait h => exact .inr ⟨by rcases h with h | h <;> rw [h] <;> decide, rfl, rfl⟩
  | readLeft h => exact .inr ⟨by rw [h]; decide, (consumeSymbol_silent s).trans (readLeft_silent _ _)⟩
  | readLine h => exact .inr ⟨by rw [h]; decide, (consumeSymbol_silent s).trans (readLine_silent _ _)⟩

/-! ## The DATE tick -/

/-- In MODE DATE the tick is the DATE tick (rule R102). -/
theorem exec_phaseTick_date {s : State} (hm : s.inMode .date) : exec .phaseTick s = .next (tickDate s) := by
  simp [exec, execPhaseTick, hm, Mode.code, modeOfCode]

/-- Everything the DATE tick changes (rule R120). -/
theorem tickDate_eq (s : State) :
    tickDate s =
      { s with
        tb := dated (dateText s.params (nextInstant s)) s.tb, p := 0, phase := Phase.rowA.code,
        clockScript := s.clockScript.tail, clockCtr := s.clockCtr + 1 } := rfl

theorem digitCode_of_lt (L : DateLayout) {x : Nat} (hx : x < 10) : digitCode L x = L.digits[x] := by
  simp only [digitCode, Nat.mod_eq_of_lt hx]

/-- HH:MM:SS, whose tens are digits as they stand. -/
theorem timeField_digits (L : DateLayout) (r : ClockReading) :
    timeField L r =
      [L.digits[r.hour.val / 10], L.digits[r.hour.val % 10], L.colon, L.digits[r.minute.val / 10], L.digits[r.minute.val % 10],
        L.colon, L.digits[r.second.val / 10], L.digits[r.second.val % 10]] := by
  rw [timeField_eq, digitCode_of_lt L (x := r.hour / 10) (by omega), digitCode_of_lt L (x := r.minute / 10) (by omega),
    digitCode_of_lt L (x := r.second / 10) (by omega)]
  rfl

theorem length_timeField_le (L : DateLayout) (r : ClockReading) : (timeField L r).length ≤ 15 := by
  simp [timeField_eq]

/-- A year written with all its digits lies between the powers of ten that their number says. -/
theorem yearField_bounds {L : DateLayout} {x : Nat} (hL : L.yearDigitsLessOne = none) (hx : x < 10 ^ 11) :
    x < 10 ^ (yearField L x).length ∧ (x ≠ 0 → 10 ^ ((yearField L x).length - 1) ≤ x) := by
  rw [length_yearField, hL]
  exact digitCount_spec hx

/-- The date line is day, separator, month, separator and year (rule R121). -/
theorem dateField_eq (L : DateLayout) (r : ClockReading) :
    dateField L r =
      (if 10 ≤ r.day.val then [digitCode L (r.day / 10)] else L.padDay.toList) ++ [digitCode L r.day] ++
        daySeparatorField L r ++
        (if 10 ≤ r.month.val then [digitCode L (r.month / 10)] else L.padMonth.toList) ++ [digitCode L r.month] ++
        monthSeparatorField L r ++ yearField L r.year := by
  simp only [dateField, dayOrMonth_eq, List.append_assoc]

section DatedLines

variable {m : Memory} (h : m.wf = true) (P : Params) (t : Instant)
include h

/-- Slot `i` of the visible part after a DATE tick. -/
theorem read_dated_dateText {i : Nat} (hi : i < 45) :
    (dated (dateText P t) m).read i = byteOfCode (dateCode (readingAndLayout P t).2 (readingAndLayout P t).1 i) := by
  rw [read_dated h, dif_pos hi, dateText_getElem P t i hi]

theorem dated_holdsPadded_date :
    (dated (dateText P t) m).holdsPadded 0 (dateField (readingAndLayout P t).2 (readingAndLayout P t).1) :=
  Memory.holdsPadded_of_read (length_dateField_le _ _) fun i hi => by
    rw [read_dated_dateText h P t (by omega), dateCode_top _ _ hi]

theorem dated_holdsPadded_time :
    (dated (dateText P t) m).holdsPadded 15 (timeField (readingAndLayout P t).2 (readingAndLayout P t).1) :=
  Memory.holdsPadded_of_read (length_timeField_le _ _) fun i hi => by
    rw [read_dated_dateText h P t (by omega), dateCode_middle _ _ hi]

theorem dated_holdsPadded_weekday :
    (dated (dateText P t) m).holdsPadded 30 (weekdayField (readingAndLayout P t).2 (readingAndLayout P t).1) :=
  Memory.holdsPadded_of_read (length_weekdayField_le _ _) fun i hi => by
    rw [read_dated_dateText h P t (by omega), dateCode_bottom]

end DatedLines

/-! ## Draws -/

theorem one_le_randMax (P : Params) : 1 ≤ randMax P := Nat.le_add_left 1 _

/-- A draw that is given outright and in range is the answer (rule R44). -/
theorem nthDraw_of_given {s : State} {n r : Nat} (hr : s.drawScript[n]? = some r) (hmax : r ≤ randMax s.params) :
    nthDraw s n = r := by
  simp [nthDraw, hr, hmax]

/-! ## The statements -/

/-- Settles O11: the outputs of a step are those of `StepCase.outputs`. -/
theorem stepEmitsAtMostOneLineEvent : Obligations.StepEmitsAtMostOneLineEvent := by
  intro s t hs h
  rcases (step_cases hs h).outputs with ⟨hp, e, he⟩ | ⟨-, hsilent⟩
  · exact .inr ⟨e, hp, he.trace, he.get_line, fun l hl => he.get_of_ne hl⟩
  · exact .inl ⟨hsilent.trace, hsilent.lv⟩

/-- Settles O28: the tick is `tickDate`, and its buffer holds the three padded fields of the reading, whatever the layout. -/
theorem dateTickRewritesTheBuffer : Obligations.DateTickRewritesTheBuffer := by
  intro s r L hwf hm hrL
  have hdate := dated_holdsPadded_date hwf s.params (nextInstant s)
  have htime := dated_holdsPadded_time hwf s.params (nextInstant s)
  have hweekday := dated_holdsPadded_weekday hwf s.params (nextInstant s)
  rw [← hrL] at hdate htime hweekday
  rw [dateField_eq] at hdate
  rw [timeField_digits] at htime
  refine ⟨tickDate s, exec_phaseTick_date hm, ?_⟩
  rw [tickDate_eq]
  refine ⟨⟨daySeparatorField L r, monthSeparatorField L r, yearField L r.year, hdate, (length_yearField_le L r.year).1,
    fun n hn => ?_, fun i hi => yearField_getElem? L r.year hi, yearField_bounds, List.take_prefix _ _, List.take_prefix _ _,
    separatorFields_eq⟩, htime, hweekday, fun i hi => ?_, ?_, fun i hi => ?_, rfl⟩
  · rw [length_yearField, hn]; rfl
  · rw [read_dated hwf, dif_pos hi]
  · rw [read_dated hwf]; rfl
  · rw [read_dated hwf, dif_neg (by omega), if_neg (by omega)]

/-- Settles O7: `fetch` gives the phase's row in a started block, and the mode decode's row before the start. -/
theorem stepRunsTheDecodedInstruction : Obligations.StepRunsTheDecodedInstruction :=
  fun _ => ⟨fun hs _ hi => step_of_phase hs hi, step_before_start⟩

/-- Settles O48: the range is that of `nthDraw_le`, whether the draw is given outright or free. -/
theorem drawsAreInRange : Obligations.DrawsAreInRange :=
  fun s n => ⟨nthDraw_le s n, rfl, one_le_randMax _, fun _ => nthDraw_of_given⟩

end Sys2Proof.Machine
end

section
/-! # What a step writes and where it stops: the statements of `10_state.md` sections 2, 3, 5 and 6

Everything a step of a started block can write and every move the host has, said once, with the settled statements about the
configuration, the counters and flags, the lines and the trace, and the states in which DATA and TICK stop. -/

namespace Sys2Proof.Machine

/-! ## The fields that each operation writes -/

theorem advanceBit_writes (s : State) : ∃ c b P, advanceBit s = { s with c := c, b := b, phase := P } := by
  unfold advanceBit
  split
  · exact ⟨_, _, _, rfl⟩
  · split <;> exact ⟨_, _, _, rfl⟩

theorem advanceRow_writes (s : State) : ∃ p P, advanceRow s = { s with p := p, phase := P } := by
  unfold advanceRow
  split <;> exact ⟨_, _, rfl⟩

theorem countRefresh_writes (s : State) : ∃ n p P, countRefresh s = { s with refreshCtr := n, p := p, phase := P } := by
  unfold countRefresh
  split
  · exact ⟨_, _, _, rfl⟩
  · dsimp only
    split <;> exact ⟨_, _, _, rfl⟩

theorem tickFw_writes (s : State) :
    ∃ tb v script n, tickFw s =
      { s with tb := tb, fwPhase := v, p := 0, phase := Phase.rowA.code, drawScript := script, drawCtr := n } := by
  rw [tickFw_eq]
  split <;> exact ⟨_, _, _, _, rfl⟩

/-- A read of a symbol other than end-of-input in RD_L. -/
theorem readLeft_writes {x : SymClass} (hx : x ≠ .eof) (s : State) :
    ∃ tb p P, readLeft x s = { s with tb := tb, p := p, phase := P } := by
  cases x with
  | eof => exact absurd rfl hx
  | lf | cr | ff | high | normal => exact ⟨_, _, _, rfl⟩

theorem endLine_writes (s : State) :
    ∃ n w p P, endLine s = { s with lineCtr := n, wrapPending := w, p := p, phase := P } := by
  unfold endLine
  split <;> exact ⟨_, _, _, _, rfl⟩

theorem storeInLine_writes (x : Byte) (s : State) :
    ∃ tb k n w p P, storeInLine x s = { s with tb := tb, k := k, lineCtr := n, wrapPending := w, p := p, phase := P } := by
  unfold storeInLine
  dsimp only
  split <;> exact ⟨_, _, _, _, _, _, rfl⟩

/-- A read of a symbol other than end-of-input in RD_V. -/
theorem readLine_writes {x : SymClass} (hx : x ≠ .eof) (s : State) :
    ∃ tb k n w p P, readLine x s = { s with tb := tb, k := k, lineCtr := n, wrapPending := w, p := p, phase := P } := by
  cases x with
  | eof => exact absurd rfl hx
  | lf =>
    obtain ⟨n, w, p, P, hend⟩ := endLine_writes s
    exact ⟨_, _, n, w, p, P, hend⟩
  | high byte | normal byte => exact storeInLine_writes byte s
  | cr | ff => exact ⟨_, _, _, _, _, _, rfl⟩

/-! ## The fields that a step writes -/

/-- The next states of a started block, by what is written: `StepCase` with the values left open (rules R14 to R27, R33 to R35). -/
inductive StepWrites (s : State) : State → Prop where
  | scan (h : s.phase.toNat ≤ 7) (lv : LineLevels) (trace : List LineEvent) (P : BitVec 4) (p : BitVec 3) (c : BitVec 6)
      (b : BitVec 3) : StepWrites s { s with lv := lv, trace := trace, phase := P, p := p, c := c, b := b }
  | post (h : s.inPhase .post) (n : Nat) (p : BitVec 3) (P : BitVec 4) :
      StepWrites s { s with refreshCtr := n, p := p, phase := P }
  | tickDate (h : s.inPhase .tick) (hm : s.inMode .date) (tb : Memory) (script : List Instant) (n : Nat) :
      StepWrites s { s with tb := tb, p := 0, phase := Phase.rowA.code, clockScript := script, clockCtr := n }
  | tickSnow (h : s.inPhase .tick) (hm : s.inMode .snow) (tb : Memory) (script : List Nat) (n : Nat) :
      StepWrites s { s with tb := tb, p := 0, phase := Phase.rowA.code, drawScript := script, drawCtr := n }
  | tickFw (h : s.inPhase .tick) (hm : s.inMode .fw) (tb : Memory) (v : Bool) (script : List Nat) (n : Nat) :
      StepWrites s { s with
        tb := tb, fwPhase := v, p := 0, phase := Phase.rowA.code, drawScript := script, drawCtr := n }
  | tickLeft (h : s.inPhase .tick) (hm : s.inMode .left) : StepWrites s { s with phase := Phase.rdL.code }
  | tickLine (h : s.inPhase .tick) (hm : s.inMode .up ∨ s.inMode .down) (tb : Memory) (n : BitVec 2) :
      StepWrites s { s with tb := tb, lineCtr := n, k := 0, phase := Phase.rdV.code }
  | wait (h : s.inReadPhase) (hp : s.inScript = []) : StepWrites s s
  | readLeft (h : s.inPhase .rdL) (tb : Memory) (p : BitVec 3) (P : BitVec 4) :
      StepWrites s { s with inScript := s.inScript.tail, tb := tb, p := p, phase := P }
  | readLine (h : s.inPhase .rdV) (tb : Memory) (k : BitVec 4) (n : BitVec 2) (w : Bool) (p : BitVec 3) (P : BitVec 4) :
      StepWrites s { s with
        inScript := s.inScript.tail, tb := tb, k := k, lineCtr := n, wrapPending := w, p := p, phase := P }
  | halt (h : s.inReadPhase) (x : BitVec 9) (rest : List (BitVec 9)) (hp : s.inScript = x :: rest) (hx : 256 ≤ x.toNat)
      (hexit : cfgExitOnEof s.cfg = true) :
      StepWrites s { s with inScript := s.inScript.tail, phase := Phase.halt.code }
  | freeze (h : s.inReadPhase) (x : BitVec 9) (rest : List (BitVec 9)) (hp : s.inScript = x :: rest) (hx : 256 ≤ x.toNat)
      (hexit : cfgExitOnEof s.cfg = false) :
      StepWrites s { s with inScript := s.inScript.tail, frozen := true, p := 0, phase := Phase.rowA.code }

/-- A read of end-of-input halts or freezes the block, and does nothing else (rule R117). -/
theorem StepWrites.of_eof {s : State} (h : s.inReadPhase) {x : BitVec 9} {rest : List (BitVec 9)} (hp : s.inScript = x :: rest)
    (hx : classOf x = .eof) : StepWrites s (eofPolicy (consumeSymbol s)) := by
  rw [eofPolicy_eq]
  split
  · next hexit => exact .halt h x rest hp (le_of_classOf_eof hx) hexit
  · next hexit => exact .freeze h x rest hp (le_of_classOf_eof hx) (by simpa using hexit)

theorem StepCase.writes {s t : State} (hcase : StepCase s t) : StepWrites s t := by
  cases hcase with
  | rowA h | rowB h | rowC h | data h | clkH h | stbH h => exact .scan (by rw [h]; decide) _ _ _ _ _ _
  | clkL h =>
    obtain ⟨c, b, P, hadvance⟩ := advanceBit_writes (setLine .sclk false s)
    rw [hadvance]
    exact .scan (by rw [h]; decide) _ _ _ _ _ _
  | stbL h =>
    obtain ⟨p, P, hadvance⟩ := advanceRow_writes (setLine .stb false s)
    rw [hadvance]
    exact .scan (by rw [h]; decide) _ _ _ _ _ _
  | post h =>
    obtain ⟨n, p, P, hcount⟩ := countRefresh_writes s
    rw [hcount]
    exact .post h n p P
  | tickDate h hm => exact .tickDate h hm _ _ _
  | tickSnow h hm =>
    rw [tickSnow_eq]
    exact .tickSnow h hm _ _ _
  | tickFw h hm =>
    obtain ⟨tb, v, script, n, htick⟩ := tickFw_writes s
    rw [htick]
    exact .tickFw h hm tb v script n
  | tickLeft h hm => exact .tickLeft h hm
  | tickUp h hm => exact .tickLine h (.inl hm) _ _
  | tickDown h hm => exact .tickLine h (.inr hm) _ _
  | wait h hp => exact .wait h hp
  | readLeft h x rest hp =>
    by_cases hx : classOf x = .eof
    · rw [hx]
      exact .of_eof (.inl h) hp hx
    · obtain ⟨tb, p, P, hread⟩ := readLeft_writes hx (consumeSymbol s)
      rw [hread]
      exact .readLeft h tb p P
  | readLine h x rest hp =>
    by_cases hx : classOf x = .eof
    · rw [hx]
      exact .of_eof (.inr h) hp hx
    · obtain ⟨tb, k, n, w, p, P, hread⟩ := readLine_writes hx (consumeSymbol s)
      rw [hread]
      exact .readLine h tb k n w p P

/-- No step of a started block writes the configuration, MODE or the parameters (rules R22, R33, R40, R103). -/
theorem StepWrites.config {s t : State} (h : StepWrites s t) :
    t.cfg = s.cfg ∧ t.mode = s.mode ∧ t.scrollDelay = s.scrollDelay ∧ t.threeLineDelay = s.threeLineDelay ∧
      t.staticText = s.staticText ∧ t.params = s.params ∧ t.started = s.started := by
  cases h <;> exact ⟨rfl, rfl, rfl, rfl, rfl, rfl, rfl⟩

/-! ## The moves of the host -/

/-- The block after a move that the host has, by move (rules R155, R156). -/
inductive MoveCase (s : State) : State → Prop where
  | configure (h : s.started = false) (cfg : BitVec 8) (d1 d2 : BitVec 32) (text : List Byte) :
      MoveCase s { s with cfg := cfg, scrollDelay := d1, threeLineDelay := d2, staticText := text }
  | offer (h : s.inReadPhase) (x : BitVec 9) : MoveCase s { s with inScript := [x] }
  | answerNow (h : s.inPhase .tick) (hm : s.inMode .date) (i : Instant) : MoveCase s { s with clockScript := [i] }
  | supplyDraw (h : s.inPhase .tick) (hm : s.inMode .snow ∨ s.inMode .fw ∧ s.fwPhase = false) (r : Nat)
      (hr : r ≤ randMax s.params) : MoveCase s { s with drawScript := s.drawScript ++ [r] }
  | observe : MoveCase s s

theorem State.configure_of_started {s : State} (hs : s.started = true) (cfg : BitVec 8) (d1 d2 : BitVec 32)
    (text : List Byte) : s.configure cfg d1 d2 text = s := by
  simp [State.configure, hs]

theorem State.configure_of_not_started {s : State} (hs : s.started = false) (cfg : BitVec 8) (d1 d2 : BitVec 32)
    (text : List Byte) :
    s.configure cfg d1 d2 text = { s with cfg := cfg, scrollDelay := d1, threeLineDelay := d2, staticText := text } := by
  simp [State.configure, hs]

theorem State.inReadPhase_of_waits {s : State} (h : s.waits = true) : s.inReadPhase := by
  simp only [State.waits, State.reads, Bool.and_eq_true, Bool.or_eq_true, beq_iff_eq] at h
  exact h.1.2

theorem State.of_samplesClock {s : State} (h : s.samplesClock = true) : s.inPhase .tick ∧ s.inMode .date := by
  simp only [State.samplesClock, Bool.and_eq_true, beq_iff_eq] at h
  exact ⟨h.1.2, h.2⟩

theorem State.of_takesDraws {s : State} (h : s.takesDraws = true) :
    s.inPhase .tick ∧ (s.inMode .snow ∨ s.inMode .fw ∧ s.fwPhase = false) := by
  simp only [State.takesDraws, Bool.and_eq_true, Bool.or_eq_true, beq_iff_eq, Bool.not_eq_true'] at h
  exact ⟨h.1.2, h.2⟩

/-- A move is one of the cases. -/
theorem afterMove_cases {s t : State} {m : HostMove} (h : s.afterMove m = some t) : MoveCase s t := by
  unfold State.afterMove at h
  split at h
  · next hpermits =>
    cases m with
    | configure cfg d1 d2 text =>
      have hs : s.started = false := by simpa [State.permits] using hpermits
      simp only [State.configure_of_not_started hs] at h
      cases h
      exact .configure hs cfg d1 d2 text
    | offer x =>
      have hwaits : s.waits = true := hpermits
      simp only [State.offer, hwaits, if_true] at h
      cases h
      exact .offer (State.inReadPhase_of_waits hwaits) x
    | answerNow i =>
      obtain ⟨hclock, -⟩ := Bool.and_eq_true_iff.mp hpermits
      obtain ⟨hp, hm⟩ := State.of_samplesClock hclock
      cases h
      exact .answerNow hp hm i
    | supplyDraw r =>
      obtain ⟨hdraws, hr⟩ := Bool.and_eq_true_iff.mp hpermits
      obtain ⟨hp, hm⟩ := State.of_takesDraws (Bool.and_eq_true_iff.mp hdraws).1
      cases h
      exact .supplyDraw hp hm r (of_decide_eq_true hr)
    | observe =>
      cases h
      exact .observe
  · cases h

theorem afterMove_configure_of_started {s : State} (hs : s.started = true) (cfg : BitVec 8) (d1 d2 : BitVec 32)
    (text : List Byte) : s.afterMove (.configure cfg d1 d2 text) = none := by
  simp [State.afterMove, State.permits, hs]

/-! ## The lines and the trace -/

/-- A silent step leaves the lines as the trace says. -/
theorem State.LinesFollowTrace.of_silent {s t : State} (h : s.LinesFollowTrace) (hst : State.Silent s t) :
    t.LinesFollowTrace := by
  intro l
  rw [hst.lv, hst.trace]
  exact h l

/-- An event is the newest of its own line, and of no other (rules R14, R73). -/
theorem State.LinesFollowTrace.of_emits {s t : State} (h : s.LinesFollowTrace) {e : LineEvent} (hst : State.Emits e s t) :
    t.LinesFollowTrace := by
  intro l
  by_cases hl : l = e.line
  · subst hl
    simp [hst.get_line, hst.trace]
  · rw [hst.get_of_ne hl, hst.trace, List.find?_cons_of_neg (by simpa using Ne.symm hl)]
    exact h l

/-! ## Where DATA and TICK stop -/

theorem State.readSlot_of_le {s : State} {i : Nat} (h : i ≤ 45) : s.readSlot i = some (s.tb.read i) :=
  if_pos (Nat.lt_succ_of_le h)

theorem State.readSlot_of_gt {s : State} {i : Nat} (h : 45 < i) : s.readSlot i = none := if_neg (by
  simp only [Config.nSlots]
  omega)

/-- DATA stops on a slot that is not one of TB. -/
theorem exec_phaseData_of_slot_gt {s : State} (hc : 45 < s.c.toNat) : exec .phaseData s = .fault .noSuchSlot := by
  simp [exec, execPhaseData, State.readSlot_of_gt hc]

/-- Row 7 asks for glyph row 8, which does not exist. -/
theorem exec_phaseData_of_row_seven {s : State} (hc : s.c.toNat ≤ 45) (hp : s.p = 7) :
    exec .phaseData s = .refused .noSuchGlyphRow := by
  have hrow : glyphRowOfPass s.p = 8 := by rw [hp]; rfl
  simp [exec, execPhaseData, State.readSlot_of_le hc, hrow, glyphRow]

theorem exec_phaseData_of_inRange {s : State} (hc : s.c.toNat ≤ 45) (hp : s.p.toNat ≤ 6) :
    exec .phaseData s =
      .next (goto .clkH (setLine .sdata
        (pixelLevel (glyphByte s.params (s.tb.read s.c.toNat) ⟨glyphRowOfPass s.p, glyphRowOfPass_lt hp⟩) s.b) s)) := by
  simp [exec, execPhaseData, State.readSlot_of_le hc, glyphRow_of_lt _ _ (glyphRowOfPass_lt hp)]

/-- Every MODE code but STATIC's and the unused 7 has a tick (rules R60, R102). -/
theorem modeOfCode_ne {w : BitVec 3} (h0 : w ≠ 0) (h7 : w ≠ 7) : modeOfCode w ≠ none ∧ modeOfCode w ≠ some .static := by
  revert w
  decide

theorem exec_phaseTick_of_mode {s : State} (h0 : s.mode ≠ 0) (h7 : s.mode ≠ 7) : ∃ t, exec .phaseTick s = .next t := by
  obtain ⟨hnone, hstatic⟩ := modeOfCode_ne h0 h7
  cases hm : modeOfCode s.mode with
  | none => exact absurd hm hnone
  | some m =>
    cases m with
    | static => exact absurd hm hstatic
    | date | snow | fw | left | up | down => exact ⟨_, by rw [exec, execPhaseTick, hm]⟩

theorem exec_phaseTick_stuck {s : State} (h : s.mode = 0 ∨ s.mode = 7) : exec .phaseTick s = .fault .stuckTick := by
  rcases h with h | h <;> simp [exec, execPhaseTick, modeOfCode, h]

/-! ## The statements -/

/-- Settles O43: the moves of the host read off `MoveCase`, the steps off `StepWrites`. -/
theorem configurationIsFixedFromTheStartOn : Obligations.ConfigurationIsFixedFromTheStartOn := by
  refine ⟨fun s cfg d1 d2 text hs => ⟨State.configure_of_started hs .., afterMove_configure_of_started hs ..⟩,
    fun s t m hmove => ?_, fun s t hs hstep => ?_⟩
  · cases afterMove_cases hmove with
    | configure h =>
      exact ⟨rfl, fun hs => absurd (hs.symm.trans h) Bool.noConfusion, absurd rfl, absurd rfl, absurd rfl⟩
    | offer h => exact ⟨rfl, fun _ => ⟨rfl, rfl, rfl, rfl⟩, fun _ => h, absurd rfl, absurd rfl⟩
    | answerNow h hm => exact ⟨rfl, fun _ => ⟨rfl, rfl, rfl, rfl⟩, absurd rfl, fun _ => ⟨h, hm⟩, absurd rfl⟩
    | supplyDraw h hm r hr =>
      exact ⟨rfl, fun _ => ⟨rfl, rfl, rfl, rfl⟩, absurd rfl, absurd rfl, fun _ => ⟨h, hm, r, hr, rfl⟩⟩
    | observe => exact ⟨rfl, fun _ => ⟨rfl, rfl, rfl, rfl⟩, absurd rfl, absurd rfl, absurd rfl⟩
  · obtain ⟨hcfg, hmode, hd1, hd2, htext, hparams, hstarted⟩ := (step_cases hs hstep).writes.config
    exact ⟨hcfg, hmode, hd1, hd2, htext, hparams, hstarted.trans hs⟩

/-- Settles O44: each counter and flag is unchanged but in the cases of `StepWrites` that list it. -/
theorem countersAreWrittenOnlyByTheirWriters : Obligations.CountersAreWrittenOnlyByTheirWriters := by
  intro s t hs hstep
  cases (step_cases hs hstep).writes with
  | scan | tickDate | tickSnow | tickLeft | wait | readLeft | halt =>
    exact ⟨absurd rfl, absurd rfl, absurd rfl, absurd rfl, absurd rfl, absurd rfl⟩
  | post h => exact ⟨fun _ => h, absurd rfl, absurd rfl, absurd rfl, absurd rfl, absurd rfl⟩
  | tickFw h hm => exact ⟨absurd rfl, absurd rfl, absurd rfl, fun _ => ⟨h, hm⟩, absurd rfl, absurd rfl⟩
  | tickLine h hm =>
    exact ⟨absurd rfl, fun _ => .inl ⟨h, hm⟩, absurd rfl, absurd rfl, absurd rfl, fun _ => .inl ⟨h, hm⟩⟩
  | readLine h => exact ⟨absurd rfl, fun _ => .inr h, fun _ => h, absurd rfl, absurd rfl, fun _ => .inr h⟩
  | freeze h x rest hp hx hexit =>
    exact ⟨absurd rfl, absurd rfl, absurd rfl, absurd rfl, fun _ => ⟨rfl, h, hexit, x, rest, hp, hx⟩, absurd rfl⟩

/-- Settles O56: a step is silent or emits one event, by `StepCase.outputs`. -/
theorem stepKeepsLinesAsTheTraceSays : Obligations.StepKeepsLinesAsTheTraceSays := by
  intro s t hs hfollow hstep
  rcases (step_cases hs hstep).outputs with ⟨-, e, hemits⟩ | ⟨-, hsilent⟩
  · exact hfollow.of_emits hemits
  · exact hfollow.of_silent hsilent

/-- Settles O17: DATA by the slot and the row, TICK by the MODE code. -/
theorem dataAndTickStopOnlyInStatesNoRunReaches : Obligations.DataAndTickStopOnlyInStatesNoRunReaches := by
  intro s
  exact ⟨exec_phaseData_of_slot_gt, exec_phaseData_of_row_seven,
    fun hc hp => ⟨_, exec_phaseData_of_inRange hc (by bv_omega)⟩, exec_phaseTick_stuck, exec_phaseTick_of_mode⟩

end Sys2Proof.Machine
end

section
/-! # The run invariant: the statement of `10_state.md` sections 3 to 5

Every step of a started block keeps the ranges of the registers, the form of the text buffer and the agreement of the sequencer
with MODE, the flags and the counters (rules R15 to R28). Each of the two groups is carried through the cases of a step on its own,
one lemma per operation. -/

namespace Sys2Proof.Machine

/-! ## Codes -/

theorem Phase.code_le (P : Phase) : P.code.toNat ≤ 12 := by cases P <;> decide

theorem Phase.code_inj {P Q : Phase} : P.code = Q.code ↔ P = Q := by cases P <;> cases Q <;> decide

theorem fillBase_le (mode : BitVec 3) : fillBase mode ≤ 30 := by
  unfold fillBase
  split <;> decide

/-- A character that does not fill its line leaves room for one more (rule R132). -/
theorem toNat_succ_le {k : BitVec 4} (hk : k.toNat ≤ 14) (hfull : ¬ k + 1 = 15) : (k + 1).toNat ≤ 14 := by
  revert k
  decide

/-! ## The bound of rule R21 in the effect modes -/

theorem byDraw_le (s : State) (mult : Nat) (x : Code7) (i : Nat) : (byDraw s mult (byteOfCode x) i).toNat ≤ 127 := by
  unfold byDraw
  split
  · exact space_le
  · exact byteOfCode_le x

section Buffers

variable {m : Memory} (h : m.isAscii = true)
include h

theorem isAscii_landscaped (l : Vector Code7 15) :
    (m.fill Config.bottomLine (landscapeByte l) Config.lineLength).isAscii = true :=
  Memory.isAscii_fill h _ (landscapeByte_le l) _

theorem isAscii_snowed (P : Params) {f : Nat → Byte} (hf : ∀ i, (f i).toNat ≤ 127) : (snowed P f m).isAscii = true := by
  have hcopied := Memory.isAscii_fill h Config.middleLine (Memory.read_le h) Config.lineLength
  have hcleared := Memory.isAscii_fill (isAscii_landscaped hcopied P.landscapeSnow) 0 (fun _ => space_le) Config.lineLength
  exact Memory.isAscii_fill hcleared 0 hf Config.lineLength

theorem isAscii_traced (P : Params) {f : Nat → Byte} (hf : ∀ i, (f i).toNat ≤ 127) : (traced P f m).isAscii = true :=
  Memory.isAscii_fill (isAscii_landscaped h _) _ hf _

end Buffers

/-! ## The registers stay in range

The fields that an operation leaves alone are taken over from the state before it. -/

section Registers

variable {s : State} (h : s.RegistersInRange)
include h

theorem goto_inRange (P : Phase) : (goto P s).RegistersInRange := { h with phase := Phase.code_le P }

theorem endTick_inRange : (endTick s).RegistersInRange :=
  { h with phase := Phase.code_le .rowA, row := Nat.zero_le 6 }

theorem advanceBit_inRange : (advanceBit s).RegistersInRange := by
  have hslot := h.slot
  unfold advanceBit
  split
  · next hb =>
    have hbit : 2 ≤ (s.b - 1).toNat := by bv_omega
    exact { h with phase := Phase.code_le .data, bit := hbit }
  · split
    · next hc =>
      have hnext : (s.c - 1).toNat ≤ 45 := by bv_omega
      have hbit : 2 ≤ (7 : BitVec 3).toNat := by decide
      exact { h with phase := Phase.code_le .data, slot := hnext, bit := hbit }
    · exact goto_inRange h .stbH

theorem advanceRow_inRange : (advanceRow s).RegistersInRange := by
  unfold advanceRow
  split
  · next hp =>
    have hrow : (s.p + 1).toNat ≤ 6 := by bv_omega
    exact { h with phase := Phase.code_le .rowA, row := hrow }
  · exact goto_inRange h .post

theorem countRefresh_inRange : (countRefresh s).RegistersInRange := by
  unfold countRefresh
  split
  · exact { endTick_inRange h with }
  · dsimp only
    split
    · exact { goto_inRange h .tick with }
    · exact { endTick_inRange h with }

theorem tickSnow_inRange : (tickSnow s).RegistersInRange := by
  rw [tickSnow_eq]
  exact { endTick_inRange h with
    buffer := wf_snowed h.buffer _ _, ascii := isAscii_snowed h.ascii _ (byDraw_le s _ _) }

theorem tickFw_inRange : (tickFw s).RegistersInRange := by
  rw [tickFw_eq]
  split
  · exact { endTick_inRange h with
      buffer := wf_traced h.buffer _ _, ascii := isAscii_traced h.ascii _ (byDraw_le s _ _) }
  · exact { endTick_inRange h with
      buffer := wf_burstTracers (wf_landscaped h.buffer _) _, ascii := isAscii_burstTracers (isAscii_landscaped h.ascii _) _ }

theorem eofPolicy_inRange : (eofPolicy s).RegistersInRange := by
  unfold eofPolicy
  split
  · exact goto_inRange h .halt
  · exact { endTick_inRange h with }

theorem storeLeft_inRange (x : Byte) : (storeLeft x s).RegistersInRange :=
  { endTick_inRange h with buffer := wf_scrolledLeft h.buffer x, ascii := isAscii_scrolledLeft h.ascii x }

theorem readLeft_inRange (x : SymClass) : (readLeft x s).RegistersInRange := by
  cases x with
  | eof => exact eofPolicy_inRange h
  | lf | cr => exact goto_inRange h .rdL
  | ff => exact storeLeft_inRange h 12
  | high byte | normal byte => exact storeLeft_inRange h byte

theorem endLine_inRange : (endLine s).RegistersInRange := by
  unfold endLine
  split
  · exact { goto_inRange h .rdV with }
  · exact { endTick_inRange h with }

/-- An open fill writes into a slot of TB (rules R38, R127). -/
theorem storeInLine_inRange (hk : s.k.toNat ≤ 14) (x : Byte) : (storeInLine x s).RegistersInRange := by
  have hslot : fillBase s.mode + s.k.toNat < Config.nSlots := by
    have := fillBase_le s.mode
    simp only [Config.nSlots]
    omega
  have hwf := Memory.wf_write h.buffer hslot (norm x)
  have hascii := Memory.isAscii_write h.ascii (fillBase s.mode + s.k.toNat) (norm_le x)
  unfold storeInLine
  dsimp only
  split
  · exact { endTick_inRange h with buffer := hwf, ascii := hascii }
  · exact { goto_inRange h .rdV with buffer := hwf, ascii := hascii }

theorem readLine_inRange (hk : s.k.toNat ≤ 14) (x : SymClass) : (readLine x s).RegistersInRange := by
  cases x with
  | eof => exact eofPolicy_inRange h
  | lf => exact endLine_inRange h
  | cr => exact goto_inRange h .rdV
  | ff =>
    exact { endTick_inRange h with
      buffer := Memory.wf_fill h.buffer _ _ _ (by decide), ascii := Memory.isAscii_fill h.ascii _ (fun _ => space_le) _ }
  | high byte | normal byte => exact storeInLine_inRange h hk byte

end Registers

/-- Every step keeps the registers in range; a fill needs the bound on `k` for it (rules R15 to R18, R20, R21, R28, R36). -/
theorem StepCase.registersInRange {s t : State} (hcase : StepCase s t) (h : s.Inv) : t.RegistersInRange := by
  have hr := h.registers
  have hline (l : Line) (v : Level) : (setLine l v s).RegistersInRange := { hr with }
  have hread : (consumeSymbol s).RegistersInRange := { hr with }
  cases hcase with
  | rowA | rowB | data | clkH | stbH => exact goto_inRange (hline _ _) _
  | rowC =>
    have hslot : (45 : BitVec 6).toNat ≤ 45 := by decide
    have hbit : 2 ≤ (7 : BitVec 3).toNat := by decide
    exact { goto_inRange hr .data with slot := hslot, bit := hbit }
  | clkL => exact advanceBit_inRange (hline _ _)
  | stbL => exact advanceRow_inRange (hline _ _)
  | post => exact countRefresh_inRange hr
  | tickDate => exact { endTick_inRange hr with buffer := wf_dated hr.buffer _, ascii := isAscii_dated hr.ascii _ }
  | tickSnow => exact tickSnow_inRange hr
  | tickFw => exact tickFw_inRange hr
  | tickLeft => exact goto_inRange hr .rdL
  | tickUp => exact { goto_inRange hr .rdV with buffer := wf_scrolledUp hr.buffer, ascii := isAscii_scrolledUp hr.ascii }
  | tickDown => exact { goto_inRange hr .rdV with buffer := wf_scrolledDown hr.buffer, ascii := isAscii_scrolledDown hr.ascii }
  | wait => exact hr
  | readLeft => exact readLeft_inRange hread _
  | readLine hp => exact readLine_inRange hread (h.sequencer.fillOpen hp).1 _

/-! ## What the sequencer's agreement asks in each phase -/

/-- The clauses of `State.SequencerAgrees` that do not speak of the phase. -/
structure State.FlagsAgree (s : State) : Prop where
  frozenScrolls : s.frozen = true → s.inScrollMode ∧ cfgExitOnEof s.cfg = false
  linesOnly : isLineScroll s.mode = false → s.lineCtr = 0 ∧ s.wrapPending = false
  fireworksOnly : ¬ s.inMode .fw → s.fwPhase = false
  notCounting : s.inMode .static → s.refreshCtr = 0
  counting : s.refreshCtr = 0 ∨ s.refreshCtr < threshold s

/-- What a tick or a read stands on: the refresh is complete and counted, and the block is not frozen (rules R98, R101, R116). -/
structure State.TickRuns (s : State) : Prop where
  row : s.p = 6
  running : s.frozen = false
  counted : s.refreshCtr = 0

/-- The other clauses of `State.SequencerAgrees`, for the phase that the state is in. -/
def State.AgreesInPhase (s : State) : Phase → Prop
  | .rowA | .rowB | .rowC | .data | .clkH | .clkL | .stbH | .stbL => True
  | .post => s.p = 6
  | .tick => s.TickRuns ∧ ¬ s.inMode .static
  | .rdL => s.TickRuns ∧ s.inMode .left
  | .rdV => s.TickRuns ∧ (s.inMode .up ∨ s.inMode .down) ∧ s.k.toNat ≤ 14 ∧ s.lineCtr.toNat ≤ 2
  | .halt => s.p = 6 ∧ s.frozen = false ∧ s.inScrollMode ∧ cfgExitOnEof s.cfg = true

theorem State.SequencerAgrees.flagsAgree {s : State} (h : s.SequencerAgrees) : s.FlagsAgree :=
  ⟨h.frozenScrolls, h.linesOnly, h.fireworksOnly, h.notCounting, h.counting⟩

theorem State.SequencerAgrees.tickRuns {s : State} (h : s.SequencerAgrees) (hp : s.inPhase .tick ∨ s.inReadPhase) :
    s.TickRuns where
  row := h.lastRow (.inr (hp.imp_right .inl))
  running := by
    by_contra hf
    obtain ⟨htick, hread, -⟩ := h.frozenStops (by simpa using hf)
    exact hp.elim htick hread
  counted := h.tickFresh hp

/-- In phase `P` the agreement is that of the flags and what `P` asks. -/
theorem State.FlagsAgree.in_phase {s : State} (h : s.FlagsAgree) {P : Phase} (hp : s.inPhase P) (hP : s.AgreesInPhase P) :
    s.SequencerAgrees := by
  have hphase {Q : Phase} (hQ : s.inPhase Q) : P = Q := Phase.code_inj.mp (hp.symm.trans hQ)
  have hruns (hQ : s.inPhase .tick ∨ s.inReadPhase) : s.TickRuns := by
    rcases hQ with hQ | hQ | hQ <;> cases hphase hQ <;> exact hP.1
  have hnotFrozen (hf : s.frozen = true) : ¬ (s.inPhase .tick ∨ s.inReadPhase) := fun hQ => by
    simpa [hf] using (hruns hQ).running
  exact { h with
    lastRow := by
      rintro (hQ | hQ | hQ | hQ)
      · cases hphase hQ; exact hP
      · exact (hruns (.inl hQ)).row
      · exact (hruns (.inr hQ)).row
      · cases hphase hQ; exact hP.1
    readLeft := fun hQ => by cases hphase hQ; exact hP.2
    readLine := fun hQ => by cases hphase hQ; exact hP.2.1
    tickHasCase := fun hQ => by cases hphase hQ; exact hP.2
    fillOpen := fun hQ => by cases hphase hQ; exact hP.2.2
    frozenStops := fun hf =>
      ⟨fun hQ => hnotFrozen hf (.inl hQ), fun hQ => hnotFrozen hf (.inr hQ), fun hQ => by
        cases hphase hQ
        simpa [hf] using hP.2.1⟩
    haltScrolls := fun hQ => by cases hphase hQ; exact hP.2.2
    tickFresh := fun hQ => (hruns hQ).counted }

/-! ## The sequencer stays in agreement -/

section Sequencer

variable {s : State} (h : s.FlagsAgree)
include h

theorem goto_agrees (P : Phase) (hP : (goto P s).AgreesInPhase P) : (goto P s).SequencerAgrees :=
  State.FlagsAgree.in_phase { h with } rfl hP

theorem endTick_agrees : (endTick s).SequencerAgrees := goto_agrees (s := { s with p := 0 }) { h with } .rowA trivial

theorem advanceBit_agrees : (advanceBit s).SequencerAgrees := by
  have hnext (c : BitVec 6) (b : BitVec 3) : { s with c := c, b := b }.FlagsAgree := { h with }
  unfold advanceBit
  split
  · exact goto_agrees (hnext _ _) .data trivial
  · split
    · exact goto_agrees (hnext _ _) .data trivial
    · exact goto_agrees h .stbH trivial

/-- STB_L goes to POST after row 6 only (rule R98). -/
theorem advanceRow_agrees (hrow : s.p.toNat ≤ 6) : (advanceRow s).SequencerAgrees := by
  have hnext (p : BitVec 3) : { s with p := p }.FlagsAgree := { h with }
  unfold advanceRow
  split
  · exact goto_agrees (hnext _) .rowA trivial
  · next hp =>
    have hlast : s.p = 6 := by bv_omega
    exact goto_agrees h .post hlast

/-- POST keeps the counter below the threshold, and starts a tick only where the mode has one (rules R23, R101). -/
theorem countRefresh_agrees (hrow : s.p = 6) : (countRefresh s).SequencerAgrees := by
  unfold countRefresh
  split
  · exact endTick_agrees h
  · next hcounts =>
    obtain ⟨hmode, hfrozen⟩ := not_or.mp hcounts
    dsimp only
    split
    · have hcounted : { s with refreshCtr := 0 }.FlagsAgree := { h with notCounting := fun _ => rfl, counting := .inl rfl }
      exact goto_agrees hcounted .tick ⟨⟨hrow, by simpa using hfrozen, rfl⟩, hmode⟩
    · next hbelow =>
      have hcounting : { s with refreshCtr := s.refreshCtr + 1 }.FlagsAgree :=
        { h with notCounting := fun hm => absurd hm hmode, counting := .inr (not_le.mp hbelow) }
      exact endTick_agrees hcounting

theorem tickSnow_agrees : (tickSnow s).SequencerAgrees := by
  rw [tickSnow_eq]
  exact { endTick_agrees h with }

theorem tickFw_agrees (hm : s.inMode .fw) : (tickFw s).SequencerAgrees := by
  rw [tickFw_eq]
  split
  · exact State.FlagsAgree.in_phase (P := .rowA) { h with fireworksOnly := fun hne => absurd hm hne } rfl trivial
  · exact State.FlagsAgree.in_phase (P := .rowA) { h with fireworksOnly := fun _ => rfl } rfl trivial

section Reads

variable (hruns : s.TickRuns)
include hruns

/-- EOF_POLICY in a scroll mode (rule R117). -/
theorem eofPolicy_agrees (hm : s.inScrollMode) : (eofPolicy s).SequencerAgrees := by
  unfold eofPolicy
  split
  · next hexit => exact goto_agrees h .halt ⟨hruns.row, hruns.running, hm, hexit⟩
  · next hexit => exact endTick_agrees { h with frozenScrolls := fun _ => ⟨hm, by simpa using hexit⟩ }

theorem readLeft_agrees (hm : s.inMode .left) (x : SymClass) : (readLeft x s).SequencerAgrees := by
  have hwait : (goto .rdL s).SequencerAgrees := goto_agrees h .rdL ⟨{ hruns with }, hm⟩
  cases x with
  | eof => exact eofPolicy_agrees h hruns (.inl hm)
  | lf | cr => exact hwait
  | ff | high | normal => exact { endTick_agrees h with }

variable (hm : s.inMode .up ∨ s.inMode .down)
include hm

/-- In a line-scroll mode `line_ctr` and `wrap_pending` are free (rules R24, R25). -/
theorem State.FlagsAgree.with_lineCounters (n : BitVec 2) (w : Bool) :
    { s with lineCtr := n, wrapPending := w }.FlagsAgree := by
  have hscroll := (isLineScroll_iff s.mode).mpr hm
  exact { h with linesOnly := fun hno => by simp [hscroll] at hno, counting := .inl hruns.counted }

/-- A fill goes on with `k` at most 14 (rules R19, R132). -/
theorem goto_rdV_agrees (hk : s.k.toNat ≤ 14) (hl : s.lineCtr.toNat ≤ 2) : (goto .rdV s).SequencerAgrees :=
  goto_agrees h .rdV ⟨{ hruns with }, hm, hk, hl⟩

theorem endLine_agrees (hk : s.k.toNat ≤ 14) (hl : s.lineCtr.toNat ≤ 2) : (endLine s).SequencerAgrees := by
  have hflags := h.with_lineCounters hruns hm
  unfold endLine
  split
  · exact goto_rdV_agrees { hflags _ _ with } { hruns with } hm hk hl
  · exact endTick_agrees { hflags _ _ with }

theorem storeInLine_agrees (hk : s.k.toNat ≤ 14) (hl : s.lineCtr.toNat ≤ 2) (x : Byte) :
    (storeInLine x s).SequencerAgrees := by
  have hflags := h.with_lineCounters hruns hm
  unfold storeInLine
  dsimp only
  split
  · exact endTick_agrees { hflags _ _ with }
  · next hfull =>
    exact goto_rdV_agrees { hflags _ _ with } { hruns with } hm (toNat_succ_le hk hfull) hl

theorem readLine_agrees (hk : s.k.toNat ≤ 14) (hl : s.lineCtr.toNat ≤ 2) (x : SymClass) :
    (readLine x s).SequencerAgrees := by
  cases x with
  | eof => exact eofPolicy_agrees h hruns (.inr hm)
  | lf => exact endLine_agrees h hruns hm hk hl
  | cr => exact goto_rdV_agrees h hruns hm hk hl
  | ff => exact endTick_agrees { h.with_lineCounters hruns hm _ _ with }
  | high byte | normal byte => exact storeInLine_agrees h hruns hm hk hl byte

/-- An UP or DOWN tick opens a fill of whatever buffer it leaves (rules R125, R126, R129). -/
theorem openFill_agrees (m : Memory) : (goto .rdV { wrapLineCtr s with tb := m, k := 0 }).SequencerAgrees := by
  have hk : (0 : BitVec 4).toNat ≤ 14 := by decide
  have hwrap : ∀ n : BitVec 2, (if n = 3 then 0 else n).toNat ≤ 2 := by decide
  exact goto_rdV_agrees { h.with_lineCounters hruns hm _ _ with } { hruns with } hm hk (hwrap s.lineCtr)

end Reads

end Sequencer

/-- Every step keeps the agreement of the sequencer with MODE, the flags and the counters. -/
theorem StepCase.sequencerAgrees {s t : State} (hcase : StepCase s t) (h : s.Inv) : t.SequencerAgrees := by
  have hs := h.sequencer
  have hf := hs.flagsAgree
  have hline (l : Line) (v : Level) : (setLine l v s).FlagsAgree := { hf with }
  have hread : (consumeSymbol s).FlagsAgree := { hf with }
  have hreadRuns (hp : s.inReadPhase) : (consumeSymbol s).TickRuns := { hs.tickRuns (.inr hp) with }
  cases hcase with
  | rowA | rowB | data | clkH | stbH => exact goto_agrees (hline _ _) _ trivial
  | rowC => exact { goto_agrees hf .data trivial with }
  | clkL => exact advanceBit_agrees (hline _ _)
  | stbL => exact advanceRow_agrees (hline _ _) h.registers.row
  | post hp => exact countRefresh_agrees hf (hs.lastRow (.inl hp))
  | tickDate => exact { endTick_agrees hf with }
  | tickSnow => exact tickSnow_agrees hf
  | tickFw hp hm => exact tickFw_agrees hf hm
  | tickLeft hp hm => exact goto_agrees hf .rdL ⟨{ hs.tickRuns (.inl hp) with }, hm⟩
  | tickUp hp hm => exact openFill_agrees hf (hs.tickRuns (.inl hp)) (.inl hm) _
  | tickDown hp hm => exact openFill_agrees hf (hs.tickRuns (.inl hp)) (.inr hm) _
  | wait => exact hs
  | readLeft hp => exact readLeft_agrees hread (hreadRuns (.inl hp)) (hs.readLeft hp) _
  | readLine hp =>
    obtain ⟨hk, hl⟩ := hs.fillOpen hp
    exact readLine_agrees hread (hreadRuns (.inr hp)) (hs.readLine hp) hk hl _

/-! ## The statement -/

/-- Settles O51: no step takes the start back, and the two groups of the invariant are kept case by case. -/
theorem stepKeepsTheRunInvariant : Obligations.StepKeepsTheRunInvariant := by
  intro s t h hstep
  have hcase := step_cases h.started hstep
  obtain ⟨-, -, -, -, -, -, hstarted⟩ := hcase.writes.config
  exact ⟨hstarted.trans h.started, hcase.registersInRange h, hcase.sequencerAgrees h⟩

end Sys2Proof.Machine
end

section
/-! # The text buffer: the statements of `20_memory.md`

What a read phase consumes (rules R42, R109), the serial order of a row pass (rule R46), which slots a step may change
(rules R38, R48, R49), and reads after writes (rule R50). -/

namespace Sys2Proof.Machine

/-! ## The step of a read phase -/

theorem eofPolicy_inScript (s : State) : (eofPolicy s).inScript = s.inScript := by
  rw [eofPolicy_eq]
  split <;> rfl

/-- What RD_L does with a symbol leaves the port alone. -/
theorem readLeft_inScript (x : SymClass) (s : State) : (readLeft x s).inScript = s.inScript := by
  by_cases hx : x = .eof
  · rw [hx]
    exact eofPolicy_inScript s
  · obtain ⟨tb, p, P, hread⟩ := readLeft_writes hx s
    rw [hread]

/-- What RD_V does with a symbol leaves the port alone. -/
theorem readLine_inScript (x : SymClass) (s : State) : (readLine x s).inScript = s.inScript := by
  by_cases hx : x = .eof
  · rw [hx]
    exact eofPolicy_inScript s
  · obtain ⟨tb, k, n, w, p, P, hread⟩ := readLine_writes hx s
    rw [hread]

section ReadStep

variable {s : State} {x : BitVec 9} {rest : List (BitVec 9)} (hs : s.started = true) (hx : s.inScript = x :: rest)
include hs hx

/-- RD_L with a symbol at the port (rules R42, R124). -/
theorem step_of_rdL (hp : s.inPhase .rdL) : step s = .next (readLeft (classOf x) (consumeSymbol s)) := by
  rw [step_of_phase hs (i := .phaseRdL) (by rw [hp]; rfl)]
  simp only [exec, execPhaseRdL, hx]

/-- RD_V with a symbol at the port (rules R42, R132). -/
theorem step_of_rdV (hp : s.inPhase .rdV) : step s = .next (readLine (classOf x) (consumeSymbol s)) := by
  rw [step_of_phase hs (i := .phaseRdV) (by rw [hp]; rfl)]
  simp only [exec, execPhaseRdV, hx]

end ReadStep

theorem readSymbol_of_rdL {s : State} (hp : s.inPhase .rdL) (x : SymClass) :
    readSymbol x s = .next (readLeft x (consumeSymbol s)) := if_pos hp

theorem readSymbol_of_rdV {s : State} (hp : s.inPhase .rdV) (x : SymClass) :
    readSymbol x s = .next (readLine x (consumeSymbol s)) := by
  have hne : s.phase ≠ Phase.rdL.code := by rw [hp]; decide
  rw [readSymbol, if_neg hne, if_pos hp]

/-! ## The data bits of a row pass -/

/-- Indexing a concatenation of lists of one length: the quotient picks the list, the remainder the element in it. -/
theorem getElem?_flatMap_of_length {α β : Type} {f : α → List β} {n : Nat} (hn : 0 < n) (hf : ∀ a, (f a).length = n)
    (l : List α) (j : Nat) : (l.flatMap f)[j]? = l[j / n]?.bind fun a => (f a)[j % n]? := by
  induction l generalizing j with
  | nil => rfl
  | cons a l ih =>
    rw [List.flatMap_cons]
    by_cases hj : j < n
    · rw [List.getElem?_append_left (by rwa [hf]), Nat.div_eq_of_lt hj, Nat.mod_eq_of_lt hj]
      rfl
    · have hle : n ≤ j := Nat.le_of_not_lt hj
      rw [List.getElem?_append_right (by rwa [hf]), hf, ih, Nat.div_eq_sub_div hn hle, Nat.mod_eq_sub_mod hle]
      rfl

/-- Slots go out from 45 down to 0 (rules R46, R90). -/
theorem slotOrder_getElem? {q : Nat} (hq : q ≤ 45) : slotOrder[q]? = some (45 - q) := by
  have hlt : q < Config.nSlots := Nat.lt_succ_of_le hq
  rw [slotOrder, List.getElem?_reverse (by rwa [List.length_range]), List.length_range,
    List.getElem?_range (Nat.sub_one_sub_lt_of_lt hlt)]
  rfl

/-- The data events of a glyph-row byte: its bits from 7 down to 2 (rule R84). -/
def charBitsData (x : Byte) : List LineEvent := (List.range 6).map fun r => ⟨.sdata, x.getLsbD (7 - r)⟩

theorem charBitsData_length (x : Byte) : (charBitsData x).length = 6 := rfl

theorem charBitsData_getElem? (x : Byte) {r : Nat} (hr : r < 6) :
    (charBitsData x)[r]? = some ⟨.sdata, x.getLsbD (7 - r)⟩ := by
  rw [charBitsData, List.getElem?_map, List.getElem?_range hr]
  rfl

theorem filter_charBitsEvents (x : Byte) : (charBitsEvents x).filter (fun e => e.line == .sdata) = charBitsData x := rfl

/-- The data events of a pass are those of its glyph-row bytes: row select and strobe drive other lines (rule R87). -/
theorem filter_rowPassEvents (P : Params) (slot : Nat → Byte) (p : Fin 7) :
    (rowPassEvents P slot p).filter (fun e => e.line == .sdata) =
      slotOrder.flatMap fun c => charBitsData (glyphByte P (slot c) (passGlyphRow p)) := by
  have hselect : (rowSelEvents (BitVec.ofNat 3 p)).filter (fun e => e.line == .sdata) = [] := rfl
  have hlatch : latchEvents.filter (fun e => e.line == .sdata) = [] := rfl
  simp only [rowPassEvents, List.filter_append, List.filter_flatMap, filter_charBitsEvents, hselect, hlatch, List.nil_append,
    List.append_nil]

/-! ## The slots that a step may change -/

/-- From slot `n` on, the buffer `m'` reads as `m`. -/
def Memory.SameFrom (n : Nat) (m m' : Memory) : Prop := ∀ i, n ≤ i → m'.read i = m.read i

theorem Memory.SameFrom.refl (n : Nat) (m : Memory) : Memory.SameFrom n m m := fun _ _ => rfl

/-- A slot that reads otherwise lies below `n`. -/
theorem Memory.SameFrom.lt_of_ne {n : Nat} {m m' : Memory} (h : Memory.SameFrom n m m') {i : Nat}
    (hi : m'.read i ≠ m.read i) : i < n := by
  by_contra hge
  exact hi (h i (Nat.le_of_not_lt hge))

section Buffers

variable {m : Memory} (h : m.wf = true)
include h

theorem Memory.sameFrom_write {n a : Nat} (ha : a < n) (v : Byte) : Memory.SameFrom n m (m.write a v) := fun i hi => by
  rw [Memory.read_write h, if_neg (by omega)]

theorem sameFrom_dated (d : Vector Code7 45) : Memory.SameFrom 46 m (dated d m) := fun i hi => by
  rw [read_dated h, dif_neg (by omega), if_neg (by omega)]

theorem sameFrom_snowed (P : Params) (f : Nat → Byte) : Memory.SameFrom 45 m (snowed P f m) := fun i hi => by
  rw [read_snowed h, if_neg (by omega), if_neg (by omega), if_neg (by omega)]

theorem sameFrom_traced (P : Params) (f : Nat → Byte) : Memory.SameFrom 45 m (traced P f m) := fun i hi => by
  rw [read_traced h, if_neg (by omega), if_neg (by omega)]

/-- The second Fireworks phase: the landscape is written, then the tracers burst (rule R138). -/
theorem sameFrom_burstTracers_landscaped (P : Params) (l : Vector Code7 15) :
    Memory.SameFrom 45 m (burstTracers P (m.fill Config.bottomLine (landscapeByte l) Config.lineLength)) := fun i hi => by
  rw [read_burstTracers (wf_landscaped h l), if_neg (by omega), if_neg (by omega), read_landscaped h, if_neg (by omega)]

theorem sameFrom_scrolledUp : Memory.SameFrom 45 m (scrolledUp m) := fun i hi => by
  rw [read_scrolledUp h, if_neg (by omega), if_neg (by omega)]

theorem sameFrom_scrolledDown : Memory.SameFrom 45 m (scrolledDown m) := fun i hi => by
  rw [read_scrolledDown h, if_neg (by omega), if_neg (by omega)]

theorem sameFrom_scrolledLeft (x : Byte) : Memory.SameFrom 46 m (scrolledLeft x m) := fun i hi => by
  rw [read_scrolledLeft h, if_neg (by omega), if_neg (by omega)]

theorem sameFrom_clearScreen : Memory.SameFrom 45 m (m.fill 0 (fun _ => Config.space) Config.nVisible) := fun i hi => by
  rw [Memory.read_fill h _ _ _ (by decide), if_neg (by simp only [Config.nVisible]; omega)]

end Buffers

theorem eofPolicy_tb (s : State) : (eofPolicy s).tb = s.tb := by
  rw [eofPolicy_eq]
  split <;> rfl

theorem endLine_tb (s : State) : (endLine s).tb = s.tb := by
  obtain ⟨n, w, p, P, hend⟩ := endLine_writes s
  rw [hend]

theorem storeInLine_tb (x : Byte) (s : State) :
    (storeInLine x s).tb = s.tb.write (fillBase s.mode + s.k.toNat) (norm x) := by
  unfold storeInLine
  dsimp only
  split <;> rfl

section Operations

variable {s : State} (h : s.tb.wf = true)
include h

theorem tickSnow_sameFrom : Memory.SameFrom 45 s.tb (tickSnow s).tb := by
  rw [tickSnow_eq]
  exact sameFrom_snowed h _ _

theorem tickFw_sameFrom : Memory.SameFrom 45 s.tb (tickFw s).tb := by
  rw [tickFw_eq]
  split
  · exact sameFrom_traced h _ _
  · exact sameFrom_burstTracers_landscaped h _ _

theorem readLeft_sameFrom (x : SymClass) : Memory.SameFrom 46 s.tb (readLeft x s).tb := by
  cases x with
  | eof => exact eofPolicy_tb s ▸ .refl _ _
  | lf | cr => exact .refl _ _
  | ff => exact sameFrom_scrolledLeft h 12
  | high byte | normal byte => exact sameFrom_scrolledLeft h byte

/-- The character of an open fill stays inside the visible slots (rules R38, R127). -/
theorem storeInLine_sameFrom (hk : s.k ≠ 15) (x : Byte) : Memory.SameFrom 45 s.tb (storeInLine x s).tb := by
  have hbase := fillBase_le s.mode
  have hfill : s.k.toNat ≤ 14 := by bv_omega
  rw [storeInLine_tb]
  exact Memory.sameFrom_write h (by omega) _

theorem readLine_sameFrom (hk : s.k ≠ 15) (x : SymClass) : Memory.SameFrom 45 s.tb (readLine x s).tb := by
  cases x with
  | eof => exact eofPolicy_tb s ▸ .refl _ _
  | lf => exact endLine_tb s ▸ .refl _ _
  | cr => exact .refl _ _
  | ff => exact sameFrom_clearScreen h
  | high byte | normal byte => exact storeInLine_sameFrom h hk byte

end Operations

/-- What a step of a started block does to the buffer, by who writes it (rules R38, R48, R49). -/
inductive BufferCase (s t : State) : Prop where
  | kept (htb : t.tb = s.tb)
  | tickDate (h : s.inPhase .tick) (hm : s.inMode .date) (htb : Memory.SameFrom 46 s.tb t.tb)
  | tickVisible (h : s.inPhase .tick) (hm : s.inMode .snow ∨ s.inMode .fw ∨ s.inMode .up ∨ s.inMode .down)
      (htb : Memory.SameFrom 45 s.tb t.tb)
  | readLeft (h : s.inPhase .rdL) (htb : Memory.SameFrom 46 s.tb t.tb)
  | readLine (h : s.inPhase .rdV) (htb : s.k ≠ 15 → Memory.SameFrom 45 s.tb t.tb)

theorem StepCase.buffer {s t : State} (hcase : StepCase s t) (hwf : s.tb.wf = true) : BufferCase s t := by
  cases hcase with
  | rowA | rowB | rowC | data | clkH | stbH | tickLeft | wait => exact .kept rfl
  | clkL =>
    obtain ⟨c, b, P, hadvance⟩ := advanceBit_writes (setLine .sclk false s)
    exact .kept (by rw [hadvance]; rfl)
  | stbL =>
    obtain ⟨p, P, hadvance⟩ := advanceRow_writes (setLine .stb false s)
    exact .kept (by rw [hadvance]; rfl)
  | post =>
    obtain ⟨n, p, P, hcount⟩ := countRefresh_writes s
    exact .kept (by rw [hcount])
  | tickDate h hm => exact .tickDate h hm (sameFrom_dated hwf _)
  | tickSnow h hm => exact .tickVisible h (.inl hm) (tickSnow_sameFrom hwf)
  | tickFw h hm => exact .tickVisible h (.inr (.inl hm)) (tickFw_sameFrom hwf)
  | tickUp h hm => exact .tickVisible h (.inr (.inr (.inl hm))) (sameFrom_scrolledUp hwf)
  | tickDown h hm => exact .tickVisible h (.inr (.inr (.inr hm))) (sameFrom_scrolledDown hwf)
  | readLeft h => exact .readLeft h (readLeft_sameFrom (s := consumeSymbol s) hwf _)
  | readLine h => exact .readLine h fun hk => readLine_sameFrom (s := consumeSymbol s) hwf hk _

/-! ## The statements -/

/-- Settles O9: the step and the row of the symbol both come down to the read of the phase in force. -/
theorem readPhaseRunsTheRowOfTheSymbol : Obligations.ReadPhaseRunsTheRowOfTheSymbol := by
  intro s x rest hs hx hp
  have hrest : (consumeSymbol s).inScript = rest := by simp [hx]
  rw [exec_decodeSymbol]
  rcases hp with hp | hp
  · rw [step_of_rdL hs hx hp, readSymbol_of_rdL hp]
    exact ⟨rfl, _, rfl, (readLeft_inScript _ _).trans hrest⟩
  · rw [step_of_rdV hs hx hp, readSymbol_of_rdV hp]
    exact ⟨rfl, _, rfl, (readLine_inScript _ _).trans hrest⟩

/-- Settles O23: the data events come six to a slot, slot 45 first. -/
theorem dataBitsGoOutSlot45FirstHighBitFirst : Obligations.DataBitsGoOutSlot45FirstHighBitFirst := by
  intro P slot p j hj
  rw [filter_rowPassEvents, getElem?_flatMap_of_length (by decide : 0 < 6) fun _ => charBitsData_length _,
    slotOrder_getElem? (by omega)]
  exact charBitsData_getElem? _ (Nat.mod_lt j (by decide))

/-- Settles O45: a changed slot lies below the bound of its case of `BufferCase`. -/
theorem bufferChangesOnlyBetweenRefreshes : Obligations.BufferChangesOnlyBetweenRefreshes := by
  intro s t hs hwf hstep i hi
  cases (step_cases hs hstep).buffer hwf with
  | kept htb => exact absurd (congrArg (Memory.read · i) htb) hi
  | tickDate h hm htb => exact .inl ⟨h, hm, Nat.le_of_lt_succ (htb.lt_of_ne hi)⟩
  | tickVisible h hm htb => exact .inr (.inl ⟨h, hm, Nat.le_of_lt_succ (htb.lt_of_ne hi)⟩)
  | readLeft h htb => exact .inr (.inr (.inl ⟨h, Nat.le_of_lt_succ (htb.lt_of_ne hi)⟩))
  | readLine h htb =>
    refine .inr (.inr (.inr ⟨h, ?_⟩))
    by_cases hk : s.k = 15
    · exact .inr hk
    · exact .inl (Nat.le_of_lt_succ ((htb hk).lt_of_ne hi))

/-- Settles O47: the read after a write is `Memory.read_write`, and the form is kept by `Memory.wf_write`. -/
theorem slotReadsReturnTheLastWrite : Obligations.SlotReadsReturnTheLastWrite := by
  intro m a v hwf ha
  refine ⟨?_, fun i hi => ?_, Memory.wf_write hwf (Nat.lt_succ_of_le ha) v⟩
  · rw [Memory.read_write hwf, if_pos rfl]
  · rw [Memory.read_write hwf, if_neg hi]

end Sys2Proof.Machine
end

section
/-! # Words: the statements of `30_encoding.md`

The decoders of the four formats and the encoder are inverse to each other. Each decoder is first read as a table over the values
of its word (rules R55, R57, R61, R62); a row then `Spells` a word of its format, and the bytes of a stored word come last. -/

namespace Sys2Proof.Machine

/-! ## Rows and the words they stand for -/

/-- The row `i` stands for the word `x` of format `f`: it belongs to the format, is well formed, and `x` is its word. -/
structure Spells (i : Instr) (f : Format) (x : BitVec f.width) : Prop where
  format : formatOf i = f
  wf : WellFormed i = true
  word : encodeWord i = x.setWidth 16

/-! ## LINE_EVENT -/

theorem lineEventOfCode_code (e : LineEvent) : lineEventOfCode e.code = .ok e := by
  obtain ⟨l, v⟩ := e
  cases l <;> cases v <;> rfl

theorem decodeLineEvent_code (e : LineEvent) : decodeLineEvent e.code = .ok (lineRow e.line e.level) := by
  rw [decodeLineEvent, lineEventOfCode_code]
  obtain ⟨l, v⟩ := e
  cases l <;> rfl

/-- The codes up to 11 are those of the twelve line events (rule R55). -/
theorem exists_lineEvent_code {w : BitVec 4} (h : w.toNat ≤ 11) : ∃ e : LineEvent, e.code = w := by
  have hcodes : ∀ w : BitVec 4, w.toNat ≤ 11 →
      ∃ l ∈ [Line.sclk, .sdata, .stb, .rowa, .rowb, .rowc], ∃ v, LineEvent.code ⟨l, v⟩ = w := by decide
  obtain ⟨l, -, v, hw⟩ := hcodes w h
  exact ⟨⟨l, v⟩, hw⟩

theorem decodeLineEvent_of_spellsNoEvent {w : BitVec 4} (h : ¬ w.toNat ≤ 11) : decodeLineEvent w = .error .spellsNoEvent := by
  revert w
  decide

theorem lineRow_spells (e : LineEvent) : Spells (lineRow e.line e.level) .lineEvent e.code := by
  obtain ⟨l, v⟩ := e
  cases l <;> exact ⟨rfl, rfl, rfl⟩

/-! ## PHASE -/

/-- The row of a phase (rule R62). -/
def phaseRow : Phase → Instr
  | .rowA => .phaseRowA
  | .rowB => .phaseRowB
  | .rowC => .phaseRowC
  | .data => .phaseData
  | .clkH => .phaseClkH
  | .clkL => .phaseClkL
  | .stbH => .phaseStbH
  | .stbL => .phaseStbL
  | .post => .phasePost
  | .tick => .phaseTick
  | .rdL => .phaseRdL
  | .rdV => .phaseRdV
  | .halt => .phaseHalt

theorem decodePhase_code (P : Phase) : decodePhase P.code = .ok (phaseRow P) := by cases P <;> rfl

/-- The codes up to 12 are those of the thirteen phases (rule R62). -/
theorem exists_phase_code {w : BitVec 4} (h : w.toNat ≤ 12) : ∃ P : Phase, P.code = w := by
  have hcodes : ∀ w : BitVec 4, w.toNat ≤ 12 →
      ∃ P ∈ [Phase.rowA, .rowB, .rowC, .data, .clkH, .clkL, .stbH, .stbL, .post, .tick, .rdL, .rdV, .halt], P.code = w := by
    decide
  obtain ⟨P, -, hw⟩ := hcodes w h
  exact ⟨P, hw⟩

theorem decodePhase_of_unused {w : BitVec 4} (h : ¬ w.toNat ≤ 12) : decodePhase w = .error .unusedPhase := by
  revert w
  decide

theorem phaseRow_spells (P : Phase) : Spells (phaseRow P) .phase P.code := by
  cases P <;> exact ⟨rfl, rfl, rfl⟩

/-! ## INPUT_SYMBOL -/

/-- Settles O4: the classes of rule R57, in its order. -/
theorem symbolClassFollowsTheByte : Obligations.SymbolClassFollowsTheByte := by
  intro x
  split_ifs with heof hlf hcr hff hhigh
  · exact classOf_eof heof
  · exact classOf_lf hlf
  · exact classOf_cr hcr
  · exact classOf_ff hff
  · exact classOf_high hhigh (Nat.lt_of_not_le heof)
  · exact classOf_normal (Nat.lt_of_not_le hhigh) hlf hff hcr

/-- The row of a symbol by its value (rule R57). -/
theorem decodeSymbol_eq (x : BitVec 9) :
    decodeSymbol x =
      if 256 ≤ x.toNat then .symEof (x.extractLsb' 0 8)
      else if x.toNat = 10 then .symLf
      else if x.toNat = 13 then .symCr
      else if x.toNat = 12 then .symFf
      else if 128 ≤ x.toNat then .symHigh (x.extractLsb' 0 7)
      else .symNormal (x.extractLsb' 0 7) := by
  have hlow : (BitVec.ofNat 8 x.toNat).extractLsb' 0 7 = x.extractLsb' 0 7 :=
    BitVec.eq_of_toNat_eq (by simp only [BitVec.extractLsb'_toNat, BitVec.toNat_ofNat, Nat.shiftRight_zero]; omega)
  rw [decodeSymbol, symbolClassFollowsTheByte x]
  split_ifs <;> simp only [hlow]

theorem isNormalCode_iff {code : BitVec 7} :
    isNormalCode code = true ↔ code.toNat ≠ 10 ∧ code.toNat ≠ 12 ∧ code.toNat ≠ 13 := by
  simp [isNormalCode, BitVec.toNat_eq, and_assoc]

theorem toNat_one_append {n : Nat} (y : BitVec n) : (1#1 ++ y).toNat = 2 ^ n + y.toNat := by
  rw [BitVec.toNat_append, ← Nat.shiftLeft_add_eq_or_of_lt y.isLt, Nat.shiftLeft_eq]
  simp

theorem decodeSymbol_endBit (y : BitVec 8) : decodeSymbol (1#1 ++ y) = .symEof y := by
  rw [decodeSymbol_eq, if_pos (by rw [toNat_one_append]; omega), BitVec.extractLsb'_append_eq_right]

theorem decodeSymbol_highBit (y : BitVec 7) : decodeSymbol ((1#1 ++ y).setWidth 9) = .symHigh y := by
  have hx : ((1#1 ++ y).setWidth 9).toNat = 128 + y.toNat := by
    rw [BitVec.toNat_setWidth, toNat_one_append]
    omega
  rw [decodeSymbol_eq, if_neg (by omega), if_neg (by omega), if_neg (by omega), if_neg (by omega), if_pos (by omega),
    BitVec.extractLsb'_setWidth_of_le (by decide), BitVec.extractLsb'_append_eq_right]

theorem decodeSymbol_normalCode {y : BitVec 7} (h : isNormalCode y = true) : decodeSymbol (y.setWidth 9) = .symNormal y := by
  obtain ⟨hlf, hff, hcr⟩ := isNormalCode_iff.1 h
  have hx : (y.setWidth 9).toNat = y.toNat := BitVec.toNat_setWidth_of_le (by decide)
  rw [decodeSymbol_eq, if_neg (by omega), if_neg (by omega), if_neg (by omega), if_neg (by omega), if_neg (by omega),
    BitVec.extractLsb'_setWidth_of_le (by decide), BitVec.extractLsb'_eq_self]

/-- Every symbol is the word of its row (rules R57, R71). -/
theorem decodeSymbol_spells (x : BitVec 9) : Spells (decodeSymbol x) .inputSymbol x := by
  have hword : ∀ {i : Instr}, (encodeWord i).toNat = x.toNat → encodeWord i = x.setWidth 16 := fun h =>
    BitVec.eq_of_toNat_eq (h.trans (BitVec.toNat_setWidth_of_le (by decide)).symm)
  rw [decodeSymbol_eq]
  split_ifs with heof hlf hcr hff hhigh
  · refine ⟨rfl, rfl, hword ?_⟩
    simp only [encodeWord, BitVec.toNat_setWidth, toNat_one_append, BitVec.extractLsb'_toNat, Nat.shiftRight_zero]
    omega
  · exact ⟨rfl, rfl, hword hlf.symm⟩
  · exact ⟨rfl, rfl, hword hcr.symm⟩
  · exact ⟨rfl, rfl, hword hff.symm⟩
  · refine ⟨rfl, rfl, hword ?_⟩
    simp only [encodeWord, BitVec.toNat_setWidth, toNat_one_append, BitVec.extractLsb'_toNat, Nat.shiftRight_zero]
    omega
  · have hx : (x.extractLsb' 0 7).toNat = x.toNat := by
      simp only [BitVec.extractLsb'_toNat, Nat.shiftRight_zero]
      omega
    refine ⟨rfl, isNormalCode_iff.2 (by omega), hword ?_⟩
    rw [encodeWord, BitVec.toNat_setWidth_of_le (by decide), hx]

/-! ## CFG -/

section Fields

variable (x d s : Bool) (m e : BitVec 2) (v : Bool)

@[simp] theorem cfgExitOnEof_cfgWord : cfgExitOnEof (cfgWord x d s m e v) = x := by decide +revert
@[simp] theorem cfgDateOverlay_cfgWord : cfgDateOverlay (cfgWord x d s m e v) = d := by decide +revert
@[simp] theorem cfgStaticEn_cfgWord : cfgStaticEn (cfgWord x d s m e v) = s := by decide +revert
@[simp] theorem cfgScrollMode_cfgWord : cfgScrollMode (cfgWord x d s m e v) = m := by decide +revert
@[simp] theorem cfgEffectMode_cfgWord : cfgEffectMode (cfgWord x d s m e v) = e := by decide +revert
@[simp] theorem cfgVerbose_cfgWord : cfgVerbose (cfgWord x d s m e v) = v := by decide +revert

end Fields

/-- The six fields hold all the bits of a CFG word (rule R58). -/
theorem cfgWord_fields (w : BitVec 8) :
    cfgWord (cfgExitOnEof w) (cfgDateOverlay w) (cfgStaticEn w) (cfgScrollMode w) (cfgEffectMode w) (cfgVerbose w) = w := by
  decide +revert

theorem cfg_eq_iff {w w' : BitVec 8} : w = w' ↔
    cfgExitOnEof w = cfgExitOnEof w' ∧ cfgDateOverlay w = cfgDateOverlay w' ∧ cfgStaticEn w = cfgStaticEn w' ∧
    cfgScrollMode w = cfgScrollMode w' ∧ cfgEffectMode w = cfgEffectMode w' ∧ cfgVerbose w = cfgVerbose w' := by
  refine ⟨fun h => by simp [h], fun ⟨hx, hd, hs, hm, he, hv⟩ => ?_⟩
  rw [← cfgWord_fields w, ← cfgWord_fields w', hx, hd, hs, hm, he, hv]

/-- A test of the mode decode compares the fields under the mask, one by one. -/
theorem and_eq_iff_fields (w mask val : BitVec 8) : w &&& mask = val ↔
    (cfgExitOnEof w && cfgExitOnEof mask) = cfgExitOnEof val ∧ (cfgDateOverlay w && cfgDateOverlay mask) = cfgDateOverlay val ∧
    (cfgStaticEn w && cfgStaticEn mask) = cfgStaticEn val ∧ cfgScrollMode w &&& cfgScrollMode mask = cfgScrollMode val ∧
    cfgEffectMode w &&& cfgEffectMode mask = cfgEffectMode val ∧ (cfgVerbose w && cfgVerbose mask) = cfgVerbose val := by
  rw [cfg_eq_iff]
  simp only [cfgExitOnEof, cfgDateOverlay, cfgStaticEn, cfgScrollMode, cfgEffectMode, cfgVerbose, BitVec.getLsbD_and,
    BitVec.extractLsb'_and]

theorem field_cases (y : BitVec 2) : y = 0 ∨ y = 1 ∨ y = 2 ∨ y = 3 := by decide +revert

/-- Settles O5: read by fields, the tests are those of rule R61 once the rows before them have failed. -/
theorem modeDecodeFollowsTheFields : Obligations.ModeDecodeFollowsTheFields := by
  intro x date static scroll effect v
  have hand : ∀ y : BitVec 2, y &&& 3#2 = y := by decide
  simp only [decodeCfg, and_eq_iff_fields, cfgExitOnEof_cfgWord, cfgDateOverlay_cfgWord, cfgStaticEn_cfgWord,
    cfgScrollMode_cfgWord, cfgEffectMode_cfgWord, cfgVerbose_cfgWord]
  rcases field_cases effect with rfl | rfl | rfl | rfl <;> cases date <;> cases static <;>
    simp [cfgExitOnEof, cfgDateOverlay, cfgStaticEn, cfgScrollMode, cfgEffectMode, cfgVerbose, hand]

theorem fieldInRange_iff {y : BitVec 2} : fieldInRange y = true ↔ y ≠ 3 := by simp [fieldInRange]

/-- Every CFG word is the word of its row (rules R61, R71). -/
theorem decodeCfg_spells (w : BitVec 8) : Spells (decodeCfg w) .cfg w := by
  suffices ∀ x d s m e v, Spells (decodeCfg (cfgWord x d s m e v)) .cfg (cfgWord x d s m e v) by
    simpa only [cfgWord_fields] using this (cfgExitOnEof w) (cfgDateOverlay w) (cfgStaticEn w) (cfgScrollMode w) (cfgEffectMode w)
      (cfgVerbose w)
  intro x d s m e v
  rw [modeDecodeFollowsTheFields]
  by_cases hm : m = 3
  · subst hm
    exact ⟨rfl, rfl, rfl⟩
  have hscroll : fieldInRange m = true := fieldInRange_iff.2 hm
  have hboth : (fieldInRange m && true) = true := (Bool.and_true _).trans hscroll
  rw [if_neg hm]
  rcases field_cases e with rfl | rfl | rfl | rfl
  · cases s <;> cases d
    · rcases field_cases m with rfl | rfl | rfl | rfl
      exacts [⟨rfl, rfl, rfl⟩, ⟨rfl, rfl, rfl⟩, ⟨rfl, rfl, rfl⟩, absurd rfl hm]
    exacts [⟨rfl, hscroll, rfl⟩, ⟨rfl, hscroll, rfl⟩, ⟨rfl, hboth, rfl⟩]
  · cases s <;> cases d
    exacts [⟨rfl, hscroll, rfl⟩, ⟨rfl, hscroll, rfl⟩, ⟨rfl, hscroll, rfl⟩, ⟨rfl, hboth, rfl⟩]
  · cases s <;> cases d
    exacts [⟨rfl, hscroll, rfl⟩, ⟨rfl, hscroll, rfl⟩, ⟨rfl, hscroll, rfl⟩, ⟨rfl, hboth, rfl⟩]
  · exact ⟨rfl, hscroll, rfl⟩

/-! ## The four decoders as one -/

/-- The decoder of a format, on the words of its width. -/
def readBits : (f : Format) → BitVec f.width → Except DecodeError Instr
  | .lineEvent, w => decodeLineEvent w
  | .inputSymbol, x => .ok (decodeSymbol x)
  | .cfg, w => .ok (decodeCfg w)
  | .phase, w => decodePhase w

/-- What a decoder accepts is the row that spells the word (rule R71). -/
theorem spells_of_readBits {f : Format} {x : BitVec f.width} {i : Instr} (h : readBits f x = .ok i) : Spells i f x := by
  cases f with
  | lineEvent =>
    by_cases hx : x.toNat ≤ 11
    · obtain ⟨e, rfl⟩ := exists_lineEvent_code hx
      cases (decodeLineEvent_code e).symm.trans h
      exact lineRow_spells e
    · cases (decodeLineEvent_of_spellsNoEvent hx).symm.trans h
  | inputSymbol =>
    cases h
    exact decodeSymbol_spells x
  | cfg =>
    cases h
    exact decodeCfg_spells x
  | phase =>
    by_cases hx : x.toNat ≤ 12
    · obtain ⟨P, rfl⟩ := exists_phase_code hx
      cases (decodePhase_code P).symm.trans h
      exact phaseRow_spells P
    · cases (decodePhase_of_unused hx).symm.trans h

/-- The decoder of a format gives each well-formed row for its word. -/
theorem exists_word_of_wellFormed {i : Instr} {f : Format} (hf : formatOf i = f) (h : WellFormed i = true) :
    ∃ x : BitVec f.width, encodeWord i = x.setWidth 16 ∧ readBits f x = .ok i := by
  subst hf
  have hwiden {n : Nat} (hn : n ≤ 9) (y : BitVec n) : (y.setWidth 9).setWidth 16 = y.setWidth 16 :=
    BitVec.setWidth_setWidth (by omega)
  cases i with
  | setSclk | setSdata | setStb | setRowa | setRowb | setRowc => exact ⟨_, rfl, decodeLineEvent_code _⟩
  | symEof y => exact ⟨1#1 ++ y, rfl, congrArg _ (decodeSymbol_endBit y)⟩
  | symLf => exact ⟨0x00A, rfl, rfl⟩
  | symCr => exact ⟨0x00D, rfl, rfl⟩
  | symFf => exact ⟨0x00C, rfl, rfl⟩
  | symHigh y => exact ⟨(1#1 ++ y).setWidth 9, (hwiden (by decide) _).symm, congrArg _ (decodeSymbol_highBit y)⟩
  | symNormal y => exact ⟨y.setWidth 9, (hwiden (by decide) _).symm, congrArg _ (decodeSymbol_normalCode h)⟩
  | modeRefuseBadScroll | modeLeft | modeUp | modeDown =>
    exact ⟨cfgWord .., rfl, congrArg _ (modeDecodeFollowsTheFields ..)⟩
  | modeRefuseBadEffect | modeRefuseStaticSnow | modeRefuseStaticFw | modeRefuseDateSnow | modeRefuseDateFw | modeStatic | modeDate
  | modeSnow | modeFw =>
    exact ⟨cfgWord .., rfl, congrArg _ ((modeDecodeFollowsTheFields ..).trans (if_neg (fieldInRange_iff.1 h)))⟩
  | modeRefuseStaticDate =>
    obtain ⟨hm, he⟩ := Bool.and_eq_true_iff.1 h
    exact ⟨cfgWord .., rfl, congrArg _ ((modeDecodeFollowsTheFields ..).trans
      ((if_neg (fieldInRange_iff.1 hm)).trans (if_neg (fieldInRange_iff.1 he))))⟩
  | phaseRowA | phaseRowB | phaseRowC | phaseData | phaseClkH | phaseClkL | phaseStbH | phaseStbL | phasePost | phaseTick
  | phaseRdL | phaseRdV | phaseHalt => exact ⟨_, rfl, rfl⟩

/-! ## Stored words -/

/-- The bytes of a word, the low byte first (`notes/assumptions/6.md`). -/
def wordBytes (f : Format) (w : BitVec 16) : List Byte :=
  match f with
  | .inputSymbol => [w.extractLsb' 0 8, w.extractLsb' 8 8]
  | _ => [w.extractLsb' 0 8]

theorem encode_eq (i : Instr) : encode i = wordBytes (formatOf i) (encodeWord i) := by
  unfold encode wordBytes
  cases formatOf i <;> rfl

theorem setWidth_setWidth_16 {n : Nat} (hn : n ≤ 16) (x : BitVec n) : (x.setWidth 16).setWidth n = x := by
  rw [BitVec.setWidth_setWidth_of_le x hn, BitVec.setWidth_eq]

theorem Format.width_le (f : Format) : f.width ≤ 9 := by cases f <;> decide

/-- `decodeWord` reads the low bits of a word that fits its format, and refuses any other. -/
theorem decodeWord_eq (f : Format) (w : BitVec 16) :
    decodeWord f w = if 2 ^ f.width ≤ w.toNat then .error .bitsAboveFormat else readBits f (w.setWidth f.width) := by
  cases f <;> rfl

theorem decodeWord_setWidth (f : Format) (x : BitVec f.width) : decodeWord f (x.setWidth 16) = readBits f x := by
  have hf := Format.width_le f
  have hfits : ¬ 2 ^ f.width ≤ (x.setWidth 16).toNat := by
    rw [BitVec.toNat_setWidth_of_le (by omega)]
    exact Nat.not_le.2 x.isLt
  rw [decodeWord_eq, if_neg hfits, setWidth_setWidth_16 (by omega)]

theorem exists_bits_of_decodeWord {f : Format} {w : BitVec 16} {i : Instr} (h : decodeWord f w = .ok i) :
    ∃ x : BitVec f.width, x.setWidth 16 = w ∧ readBits f x = .ok i := by
  rw [decodeWord_eq] at h
  split at h
  · cases h
  · next hfits =>
    refine ⟨w.setWidth f.width, BitVec.eq_of_toNat_eq ?_, h⟩
    have hf := Format.width_le f
    rw [BitVec.toNat_setWidth_of_le (by omega), BitVec.toNat_setWidth, Nat.mod_eq_of_lt (by omega)]

theorem lowByte_setWidth {n : Nat} (x : BitVec n) : (x.setWidth 16).extractLsb' 0 8 = x.setWidth 8 := by
  rw [← BitVec.setWidth_eq_extractLsb' (by decide), BitVec.setWidth_setWidth_of_le x (by decide)]

/-- Decoding the bytes of a word is reading its bits. -/
theorem decode_wordBytes (f : Format) (x : BitVec f.width) : decode f (wordBytes f (x.setWidth 16)) = readBits f x := by
  rw [← decodeWord_setWidth]
  have hbyte : f.width ≤ 8 → ((x.setWidth 16).extractLsb' 0 8).setWidth 16 = x.setWidth 16 := fun hf => by
    rw [lowByte_setWidth, BitVec.setWidth_setWidth (by omega)]
  cases f with
  | inputSymbol => exact congrArg (decodeWord .inputSymbol) BitVec.extractLsb'_append_extractLsb'
  | lineEvent => exact congrArg (decodeWord .lineEvent) (hbyte (by decide))
  | cfg => exact congrArg (decodeWord .cfg) (hbyte (by decide))
  | phase => exact congrArg (decodeWord .phase) (hbyte (by decide))

theorem exists_bits_of_decode {f : Format} {bytes : List Byte} {i : Instr} (h : decode f bytes = .ok i) :
    ∃ x : BitVec f.width, wordBytes f (x.setWidth 16) = bytes ∧ readBits f x = .ok i := by
  have hbyte : ∀ lo : Byte, [(lo.setWidth 16).extractLsb' 0 8] = [lo] := fun lo => by rw [lowByte_setWidth, BitVec.setWidth_eq]
  obtain ⟨w, hbytes, hw⟩ : ∃ w, wordBytes f w = bytes ∧ decodeWord f w = .ok i := by
    unfold decode at h
    split at h
    · next lo hi =>
      exact ⟨hi ++ lo, by rw [wordBytes, BitVec.extractLsb'_append_eq_right, BitVec.extractLsb'_append_eq_left], h⟩
    · next lo => exact ⟨_, hbyte lo, h⟩
    · next lo => exact ⟨_, hbyte lo, h⟩
    · next lo => exact ⟨_, hbyte lo, h⟩
    · cases h
  obtain ⟨x, rfl, hread⟩ := exists_bits_of_decodeWord hw
  exact ⟨x, hbytes, hread⟩

/-- A symbol row is the row of its word. -/
theorem decodeSymbol_encodeWord {i : Instr} (hf : formatOf i = .inputSymbol) (h : WellFormed i = true) :
    decodeSymbol ((encodeWord i).setWidth 9) = i := by
  obtain ⟨x, hword, hread⟩ := exists_word_of_wellFormed hf h
  have hx : (encodeWord i).setWidth 9 = x := by rw [hword]; exact setWidth_setWidth_16 (by decide) x
  rw [hx]
  exact Except.ok.inj hread

/-! ## The statements -/

/-- Settles O1: the bytes are those of the row's word, and the word reads as the row. -/
theorem encodedInstructionDecodesBack : Obligations.EncodedInstructionDecodesBack := by
  intro i h
  obtain ⟨x, hword, hread⟩ := exists_word_of_wellFormed rfl h
  rw [encode_eq, hword, decode_wordBytes, hread]

/-- Settles O2: the bytes are those of some word, and what the word reads as spells it. -/
theorem decodedWordEncodesBack : Obligations.DecodedWordEncodesBack := by
  intro f bytes i h
  obtain ⟨x, rfl, hread⟩ := exists_bits_of_decode h
  obtain ⟨rfl, hwf, hword⟩ := spells_of_readBits hread
  exact ⟨rfl, hwf, by rw [encode_eq, hword]⟩

/-- Settles O3: the codes in use are those of the events and phases, and a symbol or CFG word is spelled by its row. -/
theorem everyWordOfEveryFormatHasOneReading : Obligations.EveryWordOfEveryFormatHasOneReading := by
  refine ⟨fun w => ?_, fun x => ?_, fun w => ?_, fun w => ?_⟩
  · split_ifs with hw
    · obtain ⟨e, rfl⟩ := exists_lineEvent_code hw
      exact ⟨e, lineEventOfCode_code e, rfl⟩
    · exact decodeLineEvent_of_spellsNoEvent hw
  · exact ⟨(decodeSymbol_spells x).format, (decodeSymbol_spells x).wf⟩
  · exact ⟨(decodeCfg_spells w).format, (decodeCfg_spells w).wf⟩
  · split_ifs with hw
    · obtain ⟨P, rfl⟩ := exists_phase_code hw
      exact ⟨P, rfl, phaseRow P, decodePhase_code P, (phaseRow_spells P).format⟩
    · exact decodePhase_of_unused hw

/-- Settles O8: the fetch of an unused code fails. -/
theorem unusedPhaseCodesAreStuck : Obligations.UnusedPhaseCodesAreStuck := by
  intro s hs hp
  have hunused : decodePhase s.phase = .error .unusedPhase := decodePhase_of_unused (by omega)
  simp only [step, fetch, hs, if_true, hunused]

/-- Settles O35: the row is the read of the class of its word, which is what the phase does with that word at the port. -/
theorem symbolRowsAreTheReadOfTheirSymbol : Obligations.SymbolRowsAreTheReadOfTheirSymbol := by
  intro i s hf hwf
  have hexec : exec i s = readSymbol (classOf ((encodeWord i).setWidth 9)) s := by
    rw [← exec_decodeSymbol, decodeSymbol_encodeWord hf hwf]
  rw [hexec]
  exact ⟨fun hp => ⟨_, readSymbol_of_rdL hp _, rfl⟩, fun hp => ⟨_, readSymbol_of_rdV hp _, rfl⟩⟩

end Sys2Proof.Machine
end

section
/-! # The output lines: the statements of `40_line_driver.md`

What a line operation drives and leaves (rules R73 to R80), and in which phase the block emits each event, with what the lines
then hold (rules R75, R164, R165). -/

namespace Sys2Proof.Machine

/-! ## A line operation -/

theorem exec_lineRow (l : Line) (v : Level) (s : State) : exec (lineRow l v) s = .next (setLine l v s) := by cases l <;> rfl

/-- Each event costs one T_SETTLE (rule R73). -/
theorem leastTime_setLine (l : Line) (v : Level) (s : State) : leastTime (setLine l v s) = leastTime s + tSettle s.params :=
  Nat.succ_mul s.trace.length (tSettle s.params)

/-- Driving a line to the level that it has changes no line (rule R80). -/
theorem LineLevels.set_of_get {lv : LineLevels} {l : Line} {v : Level} (h : lv.get l = some v) : lv.set l v = lv :=
  LineLevels.ext_get fun l' => by
    rw [LineLevels.get_set]
    split
    · next hl => rw [hl, h]
    · rfl

theorem decode_lineEvent_code (e : LineEvent) : decode .lineEvent [e.code.setWidth 8] = .ok (lineRow e.line e.level) := by
  rw [← decodeLineEvent_code, ← lowByte_setWidth]
  exact decode_wordBytes .lineEvent e.code

/-! ## The phase of an event -/

/-- The phase that emits the event (rules R91 to R98). -/
def emittingPhase : LineEvent → Phase
  | ⟨.rowa, _⟩ => .rowA
  | ⟨.rowb, _⟩ => .rowB
  | ⟨.rowc, _⟩ => .rowC
  | ⟨.sdata, _⟩ => .data
  | ⟨.sclk, v⟩ => if v then .clkH else .clkL
  | ⟨.stb, v⟩ => if v then .stbH else .stbL

/-- A step that emits an event drives its line and no other, and is in a scan phase. -/
theorem StepCase.emits_of_trace {s t : State} (h : StepCase s t) {e : LineEvent} (ht : t.trace = e :: s.trace) :
    s.phase.toNat ≤ 7 ∧ State.Emits e s t := by
  rcases h.outputs with ⟨hscan, e', he⟩ | ⟨-, hsilent⟩
  · obtain rfl : e' = e := List.head_eq_of_cons_eq (he.trace.symm.trans ht)
    exact ⟨hscan, he⟩
  · exact absurd (ht.symm.trans hsilent.trace) (List.cons_ne_self e s.trace)

/-- The event of a step is one of its phase. -/
theorem StepCase.inPhase_emittingPhase {s t : State} (h : StepCase s t) {e : LineEvent} (ht : t.trace = e :: s.trace) :
    s.inPhase (emittingPhase e) := by
  obtain ⟨hscan, -⟩ := h.emits_of_trace ht
  cases h with
  | rowA hp | rowB hp | rowC hp | data hp | clkH hp | stbH hp =>
    obtain rfl := List.head_eq_of_cons_eq ht
    exact hp
  | clkL hp =>
    obtain rfl := List.head_eq_of_cons_eq ((advanceBit_silent _).trace.symm.trans ht)
    exact hp
  | stbL hp =>
    obtain rfl := List.head_eq_of_cons_eq ((advanceRow_silent _).trace.symm.trans ht)
    exact hp
  | post hp | tickDate hp | tickSnow hp | tickFw hp | tickLeft hp | tickUp hp | tickDown hp | readLeft hp | readLine hp =>
    rw [hp] at hscan
    exact absurd hscan (by decide)
  | wait hp => rcases hp with hp | hp <;> rw [hp] at hscan <;> exact absurd hscan (by decide)

/-! ## The clock and the strobe outside their pulses -/

section LinesAgree

variable {s : State} (h : s.LinesAgree) {P : Phase} (hp : s.inPhase P)
include h hp

theorem State.LinesAgree.clock_not_high (hP : P ≠ .clkL) : s.lv.sclk ≠ some true :=
  fun hc => hP (Phase.code_inj.mp (hp.symm.trans (h.clockHigh.mp hc)))

theorem State.LinesAgree.strobe_not_high (hP : P ≠ .stbL) : s.lv.stb ≠ some true :=
  fun hc => hP (Phase.code_inj.mp (hp.symm.trans (h.strobeHigh.mp hc)))

end LinesAgree

/-! ## The statements -/

/-- Settles O55: the event names the phase of the step, and the phase says how the clock and the strobe stand. -/
theorem linesChangeOnlyWhileTheClockIsNotHigh : Obligations.LinesChangeOnlyWhileTheClockIsNotHigh := by
  intro s t hinv hlines hstep
  have hcase := step_cases hinv.started hstep
  refine ⟨fun v ht => ?_, fun v ht => ?_, fun v ht => ?_⟩
  · have hclock := hlines.clock_not_high (hcase.inPhase_emittingPhase ht) Phase.noConfusion
    have hkept : t.lv.sclk = s.lv.sclk := (hcase.emits_of_trace ht).2.get_of_ne (l := .sclk) Line.noConfusion
    exact ⟨hclock, hkept ▸ hclock⟩
  · have hquiet {P : Phase} (hp : s.inPhase P) (hclock : P ≠ .clkL) (hstrobe : P ≠ .stbL) :=
      And.intro (hlines.clock_not_high hp hclock) (hlines.strobe_not_high hp hstrobe)
    rcases ht with ht | ht | ht <;>
      exact hquiet (hcase.inPhase_emittingPhase ht) Phase.noConfusion Phase.noConfusion
  · have hp := hcase.inPhase_emittingPhase ht
    cases v with
    | true => exact hlines.clockLow (.inl hp)
    | false => exact hlines.clockLow (.inr (.inl hp))

/-- Settles O13: the row of each line is `setLine`, and the word is that of its event. -/
theorem lineOperationDrivesItsOneLine : Obligations.LineOperationDrivesItsOneLine := fun l v s =>
  have hemits := setLine_emits l v s
  ⟨setLine l v s, exec_lineRow l v s, hemits.get_line, fun _ => hemits.get_of_ne, hemits.trace, leastTime_setLine l v s,
    decode_lineEvent_code ⟨l, v⟩, rfl, fun _ => rfl, LineLevels.set_of_get⟩

end Sys2Proof.Machine
end

section
/-! # The font: the statements of `41_font_lookup.md`

GLYPH_ROW as a byte of FONT (rules R82, R83), what it sees of a code (rule R85), and the pixel that DATA drives (rules R84, R88, R94). -/

namespace Sys2Proof.Machine

/-! ## The normalized code -/

/-- Rule R83, in numbers. -/
theorem toNat_norm (x : Byte) : (norm x).toNat = if 127 < x.toNat then 0 else x.toNat := by
  split
  · next h => rw [norm_of_gt h]; rfl
  · next h => rw [norm_of_le (Nat.le_of_not_lt h)]

/-- Replacing a byte above 127 by 0, or leaving it, gives the same normalized byte (rules R83, R85). -/
theorem norm_ite_zero (x : Byte) (b : Bool) : norm (if b ∧ 127 < x.toNat then 0 else x) = norm x := by
  split
  · next h => rw [norm_of_gt h.2]; rfl
  · rfl

/-! ## GLYPH_ROW -/

/-- FONT is flat (rule R39). -/
theorem getElem?_font (P : Params) (c : Fin 128) (r : Fin 7) : P.font[7 * c.val + r.val]? = some (fontByte P c r) :=
  Vector.getElem?_eq_getElem _

theorem glyphRow_norm (P : Params) (code : Byte) (row : Nat) : glyphRow P (norm code) row = glyphRow P code row := by
  simp [glyphRow, glyphByte_norm]

theorem glyphRow_of_gt (P : Params) {code : Byte} (h : 127 < code.toNat) (row : Nat) :
    glyphRow P code row = glyphRow P 0 row := by
  rw [← glyphRow_norm, norm_of_gt h]

/-! ## A refresh -/

/-- A refresh sees a slot only through GLYPH_ROW, and so only its normalized byte (rules R85, R87). -/
theorem refreshEvents_norm (P : Params) (slot : Nat → Byte) :
    refreshEvents P (fun i => norm (slot i)) = refreshEvents P slot := by
  have hpass : rowPassEvents P (fun i => norm (slot i)) = rowPassEvents P slot := by
    funext p
    simp only [rowPassEvents, glyphByte_norm]
  simp only [refreshEvents, hpass]

/-! ## The glyph row of a pass -/

/-- The register's `g(p)` is the glyph row of the physical row (rule R88). -/
theorem glyphRowOfPass_ofNat (p : Fin 7) : glyphRowOfPass (BitVec.ofNat 3 p.val) = (passGlyphRow p).val := by
  decide +revert

/-! ## The statements -/

/-- Settles O24: a code above 127 normalizes to 0, and both contents have the same normalized bytes. -/
theorem refreshTraceSeesOnlyNormalizedBytes : Obligations.RefreshTraceSeesOnlyNormalizedBytes := by
  refine fun P => ⟨fun c r _ h => glyphRow_of_gt P h r, fun slot replaced => ?_⟩
  rw [← refreshEvents_norm]
  simp only [norm_ite_zero]
  exact refreshEvents_norm P slot

/-- Settles O14: the row exists, and its byte is that of the normalized code. -/
theorem glyphRowIsTheFontByteOfTheNormalizedCode : Obligations.GlyphRowIsTheFontByteOfTheNormalizedCode := by
  intro P code row hrow
  have hlt : row < 7 := Nat.lt_succ_of_le hrow
  refine ⟨?_, by rw [glyphRow_of_lt P code hlt]; rfl, fun h => glyphRow_of_gt P h row⟩
  rw [glyphRow_of_lt P code hlt, ← toNat_norm]
  exact (getElem?_font P ⟨(norm code).toNat, norm_lt code⟩ ⟨row, hlt⟩).symm

/-- Settles O16: DATA on a slot and a row that exist, with the glyph row of the pass. -/
theorem dataDrivesThePixelOfItsSlot : Obligations.DataDrivesThePixelOfItsSlot := by
  intro s p hp hc
  have hrow : glyphRowOfPass s.p = (passGlyphRow p).val := hp ▸ glyphRowOfPass_ofNat p
  rw [exec_phaseData_of_inRange hc (by rw [hp, BitVec.toNat_ofNat]; omega)]
  simp only [hrow]
  rfl

end Sys2Proof.Machine
end

section
/-! # The scan-out: the statements of `42_scan_out.md` on the lines and the steps

The output lines phase by phase, the agreement that every step keeps, the row codes that the lines can carry, and what each scan
phase does (rules R89 to R99, R164 to R168). -/

namespace Sys2Proof.Machine

/-! ## The lines in a phase -/

/-- The shift clock in each phase (rules R99, R168): high before its falling event only, low from there to the end of the pass. -/
def LineLevels.clockIn (lv : LineLevels) : Phase → Prop
  | .rowA | .rowB | .rowC | .data | .clkH => lv.sclk ≠ some true
  | .clkL => lv.sclk = some true
  | .stbH | .stbL | .post | .tick | .rdL | .rdV | .halt => lv.sclk = some false

/-- The strobe in each phase (rules R99, R168). -/
def LineLevels.strobeIn (lv : LineLevels) : Phase → Prop
  | .rowA | .rowB | .rowC | .data | .clkH | .clkL | .stbH => lv.stb ≠ some true
  | .stbL => lv.stb = some true
  | .post | .tick | .rdL | .rdV | .halt => lv.stb = some false

/-- The row-select lines in each phase of row `p` (rules R89, R165, R166). -/
def LineLevels.rowIn (lv : LineLevels) (p : BitVec 3) : Phase → Prop
  | .rowA => lv.carriesRow (rowBefore p) ∨ (p = 0 ∧ lv.rowa = none ∧ lv.rowb = none ∧ lv.rowc = none)
  | .rowB =>
    lv.rowa = some (p.getLsbD 0) ∧
      ((lv.rowb = some ((rowBefore p).getLsbD 1) ∧ lv.rowc = some ((rowBefore p).getLsbD 2)) ∨
        (p = 0 ∧ lv.rowb = none ∧ lv.rowc = none))
  | .rowC =>
    lv.rowa = some (p.getLsbD 0) ∧ lv.rowb = some (p.getLsbD 1) ∧
      (lv.rowc = some ((rowBefore p).getLsbD 2) ∨ (p = 0 ∧ lv.rowc = none))
  | .data | .clkH | .clkL | .stbH | .stbL | .post | .tick | .rdL | .rdV | .halt => lv.carriesRow p

/-- `State.LinesAgree` of a state in the phase `P`: the clauses that speak of `P`. -/
structure State.LinesInPhase (s : State) (P : Phase) : Prop where
  phase : s.inPhase P
  clock : s.lv.clockIn P
  strobe : s.lv.strobeIn P
  row : s.lv.rowIn s.p P

theorem not_high_of_low {level : Option Level} (h : level = some false) : level ≠ some true := by simp [h]

theorem LineLevels.clockIn.high_iff {lv : LineLevels} {P : Phase} (h : lv.clockIn P) : lv.sclk = some true ↔ P = .clkL := by
  cases P <;> simp_all [LineLevels.clockIn]

theorem LineLevels.strobeIn.high_iff {lv : LineLevels} {P : Phase} (h : lv.strobeIn P) : lv.stb = some true ↔ P = .stbL := by
  cases P <;> simp_all [LineLevels.strobeIn]

theorem State.LinesAgree.inPhase {s : State} (h : s.LinesAgree) {P : Phase} (hp : s.inPhase P) : s.LinesInPhase P := by
  have hclock (hP : P ≠ .clkL) := h.clock_not_high hp hP
  have hstrobe (hP : P ≠ .stbL) := h.strobe_not_high hp hP
  have hpass (hP : s.inPass) := h.rowHeld (.inl hP)
  have hloop (hP : s.betweenRefreshes) : s.lv.sclk = some false ∧ s.lv.stb = some false ∧ s.lv.carriesRow s.p :=
    ⟨h.clockLow (.inr (.inr hP)), h.strobeLow hP, h.rowHeld (.inr hP)⟩
  cases P with
  | rowA => exact ⟨hp, hclock Phase.noConfusion, hstrobe Phase.noConfusion, h.atRowA hp⟩
  | rowB => exact ⟨hp, hclock Phase.noConfusion, hstrobe Phase.noConfusion, h.atRowB hp⟩
  | rowC => exact ⟨hp, hclock Phase.noConfusion, hstrobe Phase.noConfusion, h.atRowC hp⟩
  | data => exact ⟨hp, hclock Phase.noConfusion, hstrobe Phase.noConfusion, hpass (.inl hp)⟩
  | clkH => exact ⟨hp, hclock Phase.noConfusion, hstrobe Phase.noConfusion, hpass (.inr (.inl hp))⟩
  | clkL => exact ⟨hp, h.clockHigh.mpr hp, hstrobe Phase.noConfusion, hpass (.inr (.inr (.inl hp)))⟩
  | stbH => exact ⟨hp, h.clockLow (.inl hp), hstrobe Phase.noConfusion, hpass (.inr (.inr (.inr (.inl hp))))⟩
  | stbL => exact ⟨hp, h.clockLow (.inr (.inl hp)), h.strobeHigh.mpr hp, hpass (.inr (.inr (.inr (.inr hp))))⟩
  | post | tick | rdL | rdV | halt =>
    obtain ⟨hclockLow, hstrobeLow, hrow⟩ := hloop (by
      simp [State.betweenRefreshes, State.inReadPhase, State.inPhase, hp, Phase.code_inj])
    exact ⟨hp, hclockLow, hstrobeLow, hrow⟩

theorem State.LinesInPhase.agree {s : State} {P : Phase} (h : s.LinesInPhase P) : s.LinesAgree := by
  have hphase {Q : Phase} (hQ : s.inPhase Q) : P = Q := Phase.code_inj.mp (h.phase.symm.trans hQ)
  exact {
    clockHigh := h.clock.high_iff.trans ⟨fun hP => hP ▸ h.phase, hphase⟩
    strobeHigh := h.strobe.high_iff.trans ⟨fun hP => hP ▸ h.phase, hphase⟩
    clockLow := by rintro (hQ | hQ | hQ | hQ | (hQ | hQ) | hQ) <;> cases hphase hQ <;> exact h.clock
    strobeLow := by rintro (hQ | hQ | (hQ | hQ) | hQ) <;> cases hphase hQ <;> exact h.strobe
    rowHeld := by
      rintro ((hQ | hQ | hQ | hQ | hQ) | hQ | hQ | (hQ | hQ) | hQ) <;> cases hphase hQ <;> exact h.row
    atRowA := fun hQ => by cases hphase hQ; exact h.row
    atRowB := fun hQ => by cases hphase hQ; exact h.row
    atRowC := fun hQ => by cases hphase hQ; exact h.row }

/-! ## Between two refreshes -/

/-- The refresh is complete and the next one has not begun: the loop body, HALT, or ROW_A of the first pass (rules R87, R101). -/
def State.OutsidePasses (s : State) : Prop := s.betweenRefreshes ∨ (s.inPhase .rowA ∧ s.p = 0)

theorem endTick_outsidePasses (s : State) : (endTick s).OutsidePasses := .inr ⟨rfl, rfl⟩

theorem goto_read_outsidePasses {P : Phase} (hP : P = .rdL ∨ P = .rdV) (s : State) : (goto P s).OutsidePasses := by
  rcases hP with rfl | rfl
  · exact .inl (.inr (.inr (.inl (.inl rfl))))
  · exact .inl (.inr (.inr (.inl (.inr rfl))))

theorem countRefresh_outsidePasses (s : State) : (countRefresh s).OutsidePasses := by
  unfold countRefresh
  split
  · exact endTick_outsidePasses s
  · dsimp only
    split
    · exact .inl (.inr (.inl rfl))
    · exact .inr ⟨rfl, rfl⟩

theorem tickFw_outsidePasses (s : State) : (tickFw s).OutsidePasses := by
  obtain ⟨tb, v, script, n, htick⟩ := tickFw_writes s
  rw [htick]
  exact .inr ⟨rfl, rfl⟩

theorem tickSnow_outsidePasses (s : State) : (tickSnow s).OutsidePasses := by
  rw [tickSnow_eq]
  exact .inr ⟨rfl, rfl⟩

theorem eofPolicy_outsidePasses (s : State) : (eofPolicy s).OutsidePasses := by
  unfold eofPolicy
  split
  · exact .inl (.inr (.inr (.inr rfl)))
  · exact endTick_outsidePasses _

theorem readLeft_outsidePasses (x : SymClass) (s : State) : (readLeft x s).OutsidePasses := by
  cases x with
  | eof => exact eofPolicy_outsidePasses s
  | lf | cr => exact goto_read_outsidePasses (.inl rfl) s
  | ff | high | normal => exact endTick_outsidePasses _

theorem endLine_outsidePasses (s : State) : (endLine s).OutsidePasses := by
  unfold endLine
  split
  · exact goto_read_outsidePasses (.inr rfl) _
  · exact endTick_outsidePasses _

theorem storeInLine_outsidePasses (x : Byte) (s : State) : (storeInLine x s).OutsidePasses := by
  unfold storeInLine
  dsimp only
  split
  · exact endTick_outsidePasses _
  · exact goto_read_outsidePasses (.inr rfl) _

theorem readLine_outsidePasses (x : SymClass) (s : State) : (readLine x s).OutsidePasses := by
  cases x with
  | eof => exact eofPolicy_outsidePasses s
  | lf => exact endLine_outsidePasses s
  | cr => exact goto_read_outsidePasses (.inr rfl) s
  | ff => exact endTick_outsidePasses _
  | high byte | normal byte => exact storeInLine_outsidePasses byte s

/-- Outside the passes the clock and the strobe are low and the row-select lines carry row 6, the last one (rules R99, R166). -/
theorem State.OutsidePasses.linesAgree {s : State} (h : s.OutsidePasses) (hrow : s.betweenRefreshes → s.p = 6)
    (hclock : s.lv.sclk = some false) (hstrobe : s.lv.stb = some false) (hlast : s.lv.carriesRow 6) : s.LinesAgree := by
  rcases h with h | ⟨hp, hfirst⟩
  · have hheld : s.lv.carriesRow s.p := by rwa [hrow h]
    rcases h with hp | hp | (hp | hp) | hp <;> exact State.LinesInPhase.agree ⟨hp, hclock, hstrobe, hheld⟩
  · have hbefore : s.lv.carriesRow (rowBefore s.p) := by rwa [hfirst]
    exact State.LinesInPhase.agree (P := .rowA) ⟨hp, not_high_of_low hclock, not_high_of_low hstrobe, .inl hbefore⟩

/-- A step of the loop body drives no line, and stays outside the passes. -/
theorem State.LinesAgree.of_silent {s t : State} (h : s.LinesAgree) (hinv : s.Inv) (hinv' : t.Inv) (hp : s.betweenRefreshes)
    (hst : State.Silent s t) (ht : t.OutsidePasses) : t.LinesAgree := by
  have hheld := h.rowHeld (.inr hp)
  rw [hinv.sequencer.lastRow hp, ← hst.lv] at hheld
  exact ht.linesAgree hinv'.sequencer.lastRow (hst.lv ▸ h.clockLow (.inr (.inr hp))) (hst.lv ▸ h.strobeLow hp) hheld

/-! ## The advance of the sequencer -/

section Advance

variable {s : State}

/-- CLK_L on a bit above 2 (rule R96). -/
theorem advanceBit_of_bit_gt (hb : 2 < s.b.toNat) :
    advanceBit s = goto .data { s with b := BitVec.ofNat 3 (s.b.toNat - 1) } := by
  have hnext : s.b - 1 = BitVec.ofNat 3 (s.b.toNat - 1) := by bv_omega
  rw [advanceBit, if_pos (by bv_omega), hnext]

/-- CLK_L on the last bit of a slot above 0 (rule R96). -/
theorem advanceBit_of_slot_pos (hb : s.b.toNat ≤ 2) (hc : 0 < s.c.toNat) :
    advanceBit s = goto .data { s with c := BitVec.ofNat 6 (s.c.toNat - 1), b := 7 } := by
  have hnext : s.c - 1 = BitVec.ofNat 6 (s.c.toNat - 1) := by bv_omega
  rw [advanceBit, if_neg (by bv_omega), if_pos (by bv_omega), hnext]

/-- CLK_L on the last bit of slot 0 (rule R96). -/
theorem advanceBit_of_last (hb : s.b.toNat ≤ 2) (hc : s.c.toNat = 0) : advanceBit s = goto .stbH s := by
  rw [advanceBit, if_neg (by bv_omega), if_neg (by bv_omega)]

/-- STB_L on a row below 6 (rule R98). -/
theorem advanceRow_of_lt (hp : s.p.toNat < 6) : advanceRow s = goto .rowA { s with p := BitVec.ofNat 3 (s.p.toNat + 1) } := by
  have hnext : s.p + 1 = BitVec.ofNat 3 (s.p.toNat + 1) := by bv_omega
  rw [advanceRow, if_pos (by bv_omega), hnext]

/-- STB_L on the last row (rule R98). -/
theorem advanceRow_of_last (hp : 6 ≤ s.p.toNat) : advanceRow s = goto .post s := by
  rw [advanceRow, if_neg (by bv_omega)]

theorem rowBefore_succ {p : BitVec 3} (hp : p.toNat < 6) : rowBefore (BitVec.ofNat 3 (p.toNat + 1)) = p := by
  revert p
  decide

/-- Once the clock is low again, the sequencer is in DATA or at the strobe, and the lines fit both (rule R96). -/
theorem advanceBit_linesAgree (hclock : s.lv.sclk = some false) (hstrobe : s.lv.stb ≠ some true) (hrow : s.lv.carriesRow s.p) :
    (advanceBit s).LinesAgree := by
  have hdata (c : BitVec 6) (b : BitVec 3) : (goto .data { s with c := c, b := b }).LinesAgree :=
    State.LinesInPhase.agree (P := .data) ⟨rfl, not_high_of_low hclock, hstrobe, hrow⟩
  unfold advanceBit
  split
  · exact hdata _ _
  · split
    · exact hdata _ _
    · exact State.LinesInPhase.agree (P := .stbH) ⟨rfl, hclock, hstrobe, hrow⟩

/-- Once the strobe is low again, the row of the pass is the row before the next pass, or row 6 at POST (rules R98, R166). -/
theorem advanceRow_linesAgree (hclock : s.lv.sclk = some false) (hstrobe : s.lv.stb = some false) (hrow : s.lv.carriesRow s.p) :
    (advanceRow s).LinesAgree := by
  by_cases hp : s.p.toNat < 6
  · rw [advanceRow_of_lt hp]
    have hbefore : s.lv.carriesRow (rowBefore (BitVec.ofNat 3 (s.p.toNat + 1))) := by rwa [rowBefore_succ hp]
    exact State.LinesInPhase.agree (P := .rowA) ⟨rfl, not_high_of_low hclock, not_high_of_low hstrobe, .inl hbefore⟩
  · rw [advanceRow_of_last (not_lt.mp hp)]
    exact State.LinesInPhase.agree (P := .post) ⟨rfl, hclock, hstrobe, hrow⟩

end Advance

/-! ## The row codes -/

/-- Codes 0 to 6 of the rows are not code 7, and neither is a code whose first bits are those of a row and whose other bits are
those of the row before it (rules R89, R166). -/
theorem rowCode_ne_seven : ∀ p : BitVec 3, p.toNat ≤ 6 →
    ¬ (p.getLsbD 0 ∧ p.getLsbD 1 ∧ p.getLsbD 2) ∧
    ¬ ((rowBefore p).getLsbD 0 ∧ (rowBefore p).getLsbD 1 ∧ (rowBefore p).getLsbD 2) ∧
    ¬ (p.getLsbD 0 ∧ (rowBefore p).getLsbD 1 ∧ (rowBefore p).getLsbD 2) ∧
    ¬ (p.getLsbD 0 ∧ p.getLsbD 1 ∧ (rowBefore p).getLsbD 2) := by decide

theorem LineLevels.rowIn.ne_seven {lv : LineLevels} {p : BitVec 3} {P : Phase} (h : lv.rowIn p P) (hp : p.toNat ≤ 6) :
    ¬ (lv.rowa = some true ∧ lv.rowb = some true ∧ lv.rowc = some true) := by
  obtain ⟨hheld, hatA, hatB, hatC⟩ := rowCode_ne_seven p hp
  rintro ⟨ha, hb, hc⟩
  cases P with
  | rowA => exact hatA (by simpa [LineLevels.rowIn, LineLevels.carriesRow, ha, hb, hc] using h)
  | rowB => exact hatB (by simpa [LineLevels.rowIn, LineLevels.carriesRow, ha, hb, hc] using h)
  | rowC => exact hatC (by simpa [LineLevels.rowIn, LineLevels.carriesRow, ha, hb, hc] using h)
  | data | clkH | clkL | stbH | stbL | post | tick | rdL | rdV | halt =>
    exact hheld (by simpa [LineLevels.rowIn, LineLevels.carriesRow, ha, hb, hc] using h)

/-! ## The statements -/

/-- Settles O53: a scan phase takes the lines from its own clauses to those of the next phase, and the loop body drives no line. -/
theorem stepKeepsTheLinesInAgreement : Obligations.StepKeepsTheLinesInAgreement := by
  intro s t hinv hlines hstep
  have hinv' := stepKeepsTheRunInvariant s t hinv hstep
  have hloop (hp : s.betweenRefreshes) (hst : State.Silent s t) (ht : t.OutsidePasses) : t.LinesAgree :=
    hlines.of_silent hinv hinv' hp hst ht
  cases step_cases hinv.started hstep with
  | rowA hp =>
    obtain ⟨-, hclock, hstrobe, hrow⟩ := hlines.inPhase hp
    exact State.LinesInPhase.agree (P := .rowB) ⟨rfl, hclock, hstrobe, rfl,
      hrow.imp And.right fun ⟨h0, _, hbc⟩ => ⟨h0, hbc⟩⟩
  | rowB hp =>
    obtain ⟨-, hclock, hstrobe, ha, hrow⟩ := hlines.inPhase hp
    exact State.LinesInPhase.agree (P := .rowC) ⟨rfl, hclock, hstrobe, ha, rfl,
      hrow.imp And.right fun ⟨h0, _, hc⟩ => ⟨h0, hc⟩⟩
  | rowC hp =>
    obtain ⟨-, hclock, hstrobe, ha, hb, -⟩ := hlines.inPhase hp
    exact State.LinesInPhase.agree (P := .data) ⟨rfl, hclock, hstrobe, ha, hb, rfl⟩
  | data hp =>
    obtain ⟨-, hclock, hstrobe, hrow⟩ := hlines.inPhase hp
    exact State.LinesInPhase.agree (P := .clkH) ⟨rfl, hclock, hstrobe, hrow⟩
  | clkH hp =>
    obtain ⟨-, -, hstrobe, hrow⟩ := hlines.inPhase hp
    exact State.LinesInPhase.agree (P := .clkL) ⟨rfl, rfl, hstrobe, hrow⟩
  | clkL hp =>
    obtain ⟨-, -, hstrobe, hrow⟩ := hlines.inPhase hp
    exact advanceBit_linesAgree rfl hstrobe hrow
  | stbH hp =>
    obtain ⟨-, hclock, -, hrow⟩ := hlines.inPhase hp
    exact State.LinesInPhase.agree (P := .stbL) ⟨rfl, hclock, rfl, hrow⟩
  | stbL hp =>
    obtain ⟨-, hclock, -, hrow⟩ := hlines.inPhase hp
    exact advanceRow_linesAgree hclock rfl hrow
  | post hp => exact hloop (.inl hp) (countRefresh_silent s) (countRefresh_outsidePasses s)
  | tickDate hp => exact hloop (.inr (.inl hp)) ⟨rfl, rfl⟩ (endTick_outsidePasses _)
  | tickSnow hp => exact hloop (.inr (.inl hp)) (tickSnow_silent s) (tickSnow_outsidePasses s)
  | tickFw hp => exact hloop (.inr (.inl hp)) (tickFw_silent s) (tickFw_outsidePasses s)
  | tickLeft hp => exact hloop (.inr (.inl hp)) ⟨rfl, rfl⟩ (goto_read_outsidePasses (.inl rfl) s)
  | tickUp hp | tickDown hp => exact hloop (.inr (.inl hp)) ⟨rfl, rfl⟩ (goto_read_outsidePasses (.inr rfl) _)
  | wait => exact hlines
  | readLeft hp =>
    exact hloop (.inr (.inr (.inl (.inl hp)))) ((consumeSymbol_silent s).trans (readLeft_silent _ _)) (readLeft_outsidePasses _ _)
  | readLine hp =>
    exact hloop (.inr (.inr (.inl (.inr hp)))) ((consumeSymbol_silent s).trans (readLine_silent _ _)) (readLine_outsidePasses _ _)

/-- Settles O54: in each phase the row-select lines carry bits of the row and of the row before it, and both rows are at most 6. -/
theorem rowSelectCodeSevenNeverAppears : Obligations.RowSelectCodeSevenNeverAppears := by
  intro s hinv hlines
  obtain ⟨P, hP⟩ := exists_phase_code hinv.registers.phase
  exact (hlines.inPhase (P := P) hP.symm).row.ne_seven hinv.registers.row

/-- Settles O15: each phase is `setLine`, then `goto`. -/
theorem rowPhasesDriveTheRowSelectBits : Obligations.RowPhasesDriveTheRowSelectBits := fun _ => ⟨rfl, rfl, rfl⟩

/-- Settles O18: the falling edge, then the three ways of `advanceBit`. -/
theorem clockPhasesPulseAndAdvance : Obligations.ClockPhasesPulseAndAdvance := fun s =>
  ⟨rfl, fun hb => congrArg Host.Outcome.next (advanceBit_of_bit_gt (s := setLine .sclk false s) hb),
    fun hb hc => congrArg Host.Outcome.next (advanceBit_of_slot_pos (s := setLine .sclk false s) hb hc),
    fun hb hc => congrArg Host.Outcome.next (advanceBit_of_last (s := setLine .sclk false s) hb hc)⟩

/-- Settles O19: the falling edge, then the two ways of `advanceRow`. -/
theorem strobePhasesLatchAndAdvance : Obligations.StrobePhasesLatchAndAdvance := fun s =>
  ⟨rfl, fun hp => congrArg Host.Outcome.next (advanceRow_of_lt (s := setLine .stb false s) hp),
    fun hp => congrArg Host.Outcome.next (advanceRow_of_last (s := setLine .stb false s) hp)⟩

end Sys2Proof.Machine
end

section
/-! # The scan-out: the statements of `42_scan_out.md` on the refresh

The events of a refresh (rules R87, R99, R100): their counts, what of them depends on the contents, and the 5831 steps of the phases
that emit exactly these events. -/

namespace Sys2Proof.Machine

/-! ## The events of a refresh -/

/-- The loop of rule R87 over the rows, written out. -/
theorem refreshEvents_eq (P : Params) (slot : Nat → Byte) :
    refreshEvents P slot =
      rowPassEvents P slot 0 ++ (rowPassEvents P slot 1 ++ (rowPassEvents P slot 2 ++ (rowPassEvents P slot 3 ++
        (rowPassEvents P slot 4 ++ (rowPassEvents P slot 5 ++ rowPassEvents P slot 6))))) := by
  simp [refreshEvents, List.finRange_succ]

theorem countP_flatMap_of_countP {α β : Type} {q : β → Bool} {f : α → List β} {n : Nat} (h : ∀ a, (f a).countP q = n)
    (l : List α) :
    (l.flatMap f).countP q = l.length * n := by
  have hconst : List.countP q ∘ f = fun _ => n := funext h
  rw [List.countP_flatMap, hconst, List.map_const', List.sum_replicate, smul_eq_mul]

theorem length_slotOrder : slotOrder.length = 46 := rfl

/-- A refresh is 7 row selects, 7 times 46 characters and 7 latches (rule R87): so many of its events have a property. -/
theorem countP_refreshEvents (q : LineEvent → Bool) (nRow nChar nLatch : Nat)
    (hrow : ∀ p, (rowSelEvents p).countP q = nRow) (hchar : ∀ x, (charBitsEvents x).countP q = nChar)
    (hlatch : latchEvents.countP q = nLatch) (P : Params) (slot : Nat → Byte) :
    (refreshEvents P slot).countP q = 7 * (nRow + 46 * nChar + nLatch) := by
  have hpass (p : Fin 7) : (rowPassEvents P slot p).countP q = nRow + 46 * nChar + nLatch := by
    rw [rowPassEvents, List.countP_append, List.countP_append, hrow, hlatch, countP_flatMap_of_countP fun c => hchar _,
      length_slotOrder]
  rw [refreshEvents, countP_flatMap_of_countP hpass, List.length_finRange]

theorem length_refreshEvents (P : Params) (slot : Nat → Byte) : (refreshEvents P slot).length = 5831 := by
  rw [← List.countP_true]
  exact countP_refreshEvents (fun _ => true) 3 18 2 (fun _ => rfl) (fun _ => rfl) rfl P slot

/-- What rule R100 keeps of an event: the line, and the level of every line but shift data. -/
def LineEvent.skeleton (e : LineEvent) : Line × Level := (e.line, if e.line = .sdata then false else e.level)

/-- The pixels of a character are the levels of its data events, and nothing else is. -/
theorem map_skeleton_charBitsEvents (x : Byte) :
    (charBitsEvents x).map LineEvent.skeleton = (charBitsEvents 0).map LineEvent.skeleton := rfl

theorem map_skeleton_rowPassEvents (P : Params) (slot : Nat → Byte) (p : Fin 7) :
    (rowPassEvents P slot p).map LineEvent.skeleton =
      (rowSelEvents (BitVec.ofNat 3 p)).map LineEvent.skeleton ++
        slotOrder.flatMap (fun _ => (charBitsEvents 0).map LineEvent.skeleton) ++ latchEvents.map LineEvent.skeleton := by
  simp only [rowPassEvents, List.map_append, List.map_flatMap, map_skeleton_charBitsEvents (glyphByte _ _ _)]

/-! ## Emitting a sequence of events -/

/-- The lines after a sequence of events. -/
def LineLevels.drive (lv : LineLevels) (es : List LineEvent) : LineLevels := es.foldl (fun lv e => lv.set e.line e.level) lv

theorem LineLevels.drive_append (lv : LineLevels) (es es' : List LineEvent) :
    lv.drive (es ++ es') = (lv.drive es).drive es' := List.foldl_append

/-- The block after a sequence of events, all else unchanged: `setLine` for each of them. -/
def State.emit (s : State) (es : List LineEvent) : State := { s with lv := s.lv.drive es, trace := es.reverse ++ s.trace }

theorem State.emit_append (s : State) (es es' : List LineEvent) : s.emit (es ++ es') = (s.emit es).emit es' := by
  simp [State.emit, LineLevels.drive_append]

theorem State.emit_singleton (s : State) (e : LineEvent) : s.emit [e] = setLine e.line e.level s := rfl

/-! ## The run of a refresh -/

/-- The registers of the sequencer in a scan phase (rules R15 to R18). -/
structure ScanPoint where
  phase : Phase
  p : BitVec 3
  c : BitVec 6
  b : BitVec 3

/-- The block with its sequencer at the given point. -/
def State.scanAt (s : State) (x : ScanPoint) : State := { s with phase := x.phase.code, p := x.p, c := x.c, b := x.b }

/-- From point `x` the sequencer emits exactly `es`, one event each step, and is then at `y`; nothing else changes, whatever else
a started block with this FONT and these contents of TB holds. -/
def Scans (P : Params) (slot : Nat → Byte) (x : ScanPoint) (es : List LineEvent) (y : ScanPoint) : Prop :=
  ∀ s : State, s.started = true → s.params = P → s.tb.read = slot →
    Host.Core.run Sys2Proof.core es.length (s.scanAt x) = .next ((s.emit es).scanAt y)

section Scans

variable {P : Params} {slot : Nat → Byte}

theorem Scans.trans {x y z : ScanPoint} {es es' : List LineEvent} (h : Scans P slot x es y) (h' : Scans P slot y es' z) :
    Scans P slot x (es ++ es') z := by
  intro s hs hP hslot
  rw [List.length_append, run_add (h s hs hP hslot), State.emit_append]
  exact h' (s.emit es) hs hP hslot

/-- A step of one micro-operation. -/
theorem Scans.of_exec {x y : ScanPoint} {e : LineEvent} {i : Instr} (hi : decodePhase x.phase.code = .ok i)
    (h : ∀ s : State, s.params = P → s.tb.read = slot →
      exec i (s.scanAt x) = .next ((setLine e.line e.level s).scanAt y)) : Scans P slot x [e] y := by
  intro s hs hP hslot
  have hstep : step (s.scanAt x) = .next ((setLine e.line e.level s).scanAt y) :=
    (step_of_phase (s := s.scanAt x) hs hi).trans (h s hP hslot)
  rw [State.emit_singleton]
  exact run_succ_of_step hstep 0

/-- ROW_A, ROW_B and ROW_C (rules R91 to R93). -/
theorem scans_rowSel (p : BitVec 3) (c : BitVec 6) (b : BitVec 3) :
    Scans P slot ⟨.rowA, p, c, b⟩ (rowSelEvents p) ⟨.data, p, 45, 7⟩ := by
  have hA : Scans P slot ⟨.rowA, p, c, b⟩ [⟨.rowa, rowSelectBit p 0⟩] ⟨.rowB, p, c, b⟩ := .of_exec rfl fun _ _ _ => rfl
  have hB : Scans P slot ⟨.rowB, p, c, b⟩ [⟨.rowb, rowSelectBit p 1⟩] ⟨.rowC, p, c, b⟩ := .of_exec rfl fun _ _ _ => rfl
  have hC : Scans P slot ⟨.rowC, p, c, b⟩ [⟨.rowc, rowSelectBit p 2⟩] ⟨.data, p, 45, 7⟩ := .of_exec rfl fun _ _ _ => rfl
  exact hA.trans (hB.trans hC)

/-- DATA, CLK_H and CLK_L, up to the advance (rules R94 to R96). -/
theorem scans_shift (p : Fin 7) {c : BitVec 6} (hc : c.toNat ≤ 45) {b : BitVec 3} {y : ScanPoint}
    (hy : ∀ s : State, advanceBit (s.scanAt ⟨.clkL, BitVec.ofNat 3 p, c, b⟩) = s.scanAt y) :
    Scans P slot ⟨.data, BitVec.ofNat 3 p, c, b⟩
      (shiftEvents ((glyphByte P (slot c.toNat) (passGlyphRow p)).getLsbD b.toNat)) y := by
  have hdata : Scans P slot ⟨.data, BitVec.ofNat 3 p, c, b⟩
      [⟨.sdata, (glyphByte P (slot c.toNat) (passGlyphRow p)).getLsbD b.toNat⟩] ⟨.clkH, BitVec.ofNat 3 p, c, b⟩ := by
    refine .of_exec (i := .phaseData) rfl fun s hP hslot => ?_
    subst hP hslot
    exact dataDrivesThePixelOfItsSlot (s.scanAt ⟨.data, BitVec.ofNat 3 p, c, b⟩) p rfl hc
  have hhigh : Scans P slot ⟨.clkH, BitVec.ofNat 3 p, c, b⟩ [⟨.sclk, true⟩] ⟨.clkL, BitVec.ofNat 3 p, c, b⟩ :=
    .of_exec rfl fun _ _ _ => rfl
  have hlow : Scans P slot ⟨.clkL, BitVec.ofNat 3 p, c, b⟩ [⟨.sclk, false⟩] y :=
    .of_exec (i := .phaseClkL) rfl fun s _ _ => congrArg Host.Outcome.next (hy (setLine .sclk false s))
  exact hdata.trans (hhigh.trans hlow)

/-- Where the sequencer goes after the last bit of slot `c` (rule R96). -/
def afterSlot (p : BitVec 3) : Nat → ScanPoint
  | 0 => ⟨.stbH, p, 0, 2⟩
  | c + 1 => ⟨.data, p, BitVec.ofNat 6 c, 7⟩

theorem toNat_ofNat_slot {c : Nat} (hc : c ≤ 45) : (BitVec.ofNat 6 c).toNat = c := by
  rw [BitVec.toNat_ofNat]
  omega

theorem advanceBit_afterSlot (p : BitVec 3) {c : Nat} (hc : c ≤ 45) (s : State) :
    advanceBit (s.scanAt ⟨.clkL, p, BitVec.ofNat 6 c, 2⟩) = s.scanAt (afterSlot p c) := by
  have hlastBit : (s.scanAt ⟨.clkL, p, BitVec.ofNat 6 c, 2⟩).b.toNat ≤ 2 := Nat.le_refl 2
  have hslot : (s.scanAt ⟨.clkL, p, BitVec.ofNat 6 c, 2⟩).c.toNat = c := toNat_ofNat_slot hc
  cases c with
  | zero => exact advanceBit_of_last hlastBit hslot
  | succ c =>
    have hpos : 0 < (s.scanAt ⟨.clkL, p, BitVec.ofNat 6 (c + 1), 2⟩).c.toNat := by
      rw [hslot]
      exact Nat.succ_pos c
    rw [advanceBit_of_slot_pos hlastBit hpos, hslot]
    rfl

/-- The six bits of a slot, from bit 7 down to bit 2 (rules R84, R94 to R96). -/
theorem scans_charBits (p : Fin 7) {c : Nat} (hc : c ≤ 45) :
    Scans P slot ⟨.data, BitVec.ofNat 3 p, BitVec.ofNat 6 c, 7⟩ (charBitsEvents (glyphByte P (slot c) (passGlyphRow p)))
      (afterSlot (BitVec.ofNat 3 p) c) := by
  have hslot := toNat_ofNat_slot hc
  have hbit {b : BitVec 3} (hb : 2 < b.toNat) :
      Scans P slot ⟨.data, BitVec.ofNat 3 p, BitVec.ofNat 6 c, b⟩
        (shiftEvents ((glyphByte P (slot c) (passGlyphRow p)).getLsbD b.toNat))
        ⟨.data, BitVec.ofNat 3 p, BitVec.ofNat 6 c, BitVec.ofNat 3 (b.toNat - 1)⟩ := by
    have hadvance (s : State) : advanceBit (s.scanAt ⟨.clkL, BitVec.ofNat 3 p, BitVec.ofNat 6 c, b⟩) =
        s.scanAt ⟨.data, BitVec.ofNat 3 p, BitVec.ofNat 6 c, BitVec.ofNat 3 (b.toNat - 1)⟩ := advanceBit_of_bit_gt hb
    have hshift := scans_shift (P := P) (slot := slot) p (hslot.trans_le hc) hadvance
    rwa [hslot] at hshift
  have hlast := scans_shift (P := P) (slot := slot) p (hslot.trans_le hc) (advanceBit_afterSlot (BitVec.ofNat 3 p) hc)
  rw [hslot] at hlast
  exact (hbit (b := 7) (by decide)).trans <| (hbit (b := 6) (by decide)).trans <| (hbit (b := 5) (by decide)).trans <|
    (hbit (b := 4) (by decide)).trans <| (hbit (b := 3) (by decide)).trans hlast

/-- The slots from `c` down to 0 (rules R46, R90). -/
theorem scans_slots (p : Fin 7) {c : Nat} (hc : c ≤ 45) :
    Scans P slot ⟨.data, BitVec.ofNat 3 p, BitVec.ofNat 6 c, 7⟩
      ((List.range (c + 1)).reverse.flatMap fun c => charBitsEvents (glyphByte P (slot c) (passGlyphRow p)))
      ⟨.stbH, BitVec.ofNat 3 p, 0, 2⟩ := by
  induction c with
  | zero => exact scans_charBits p hc
  | succ c ih =>
    rw [List.range_succ, List.reverse_append, List.flatMap_append]
    exact (scans_charBits p hc).trans (ih (Nat.le_of_succ_le hc))

/-- One pass, up to the advance of STB_L (rules R87, R91 to R98). -/
theorem scans_rowPass (p : Fin 7) (c : BitVec 6) (b : BitVec 3) {y : ScanPoint}
    (hy : ∀ s : State, advanceRow (s.scanAt ⟨.stbL, BitVec.ofNat 3 p, 0, 2⟩) = s.scanAt y) :
    Scans P slot ⟨.rowA, BitVec.ofNat 3 p, c, b⟩ (rowPassEvents P slot p) y := by
  have hhigh : Scans P slot ⟨.stbH, BitVec.ofNat 3 p, 0, 2⟩ [⟨.stb, true⟩] ⟨.stbL, BitVec.ofNat 3 p, 0, 2⟩ :=
    .of_exec rfl fun _ _ _ => rfl
  have hlow : Scans P slot ⟨.stbL, BitVec.ofNat 3 p, 0, 2⟩ [⟨.stb, false⟩] y :=
    .of_exec (i := .phaseStbL) rfl fun s _ _ => congrArg Host.Outcome.next (hy (setLine .stb false s))
  exact ((scans_rowSel _ c b).trans (scans_slots p (Nat.le_refl 45))).trans (hhigh.trans hlow)

theorem scans_rowPass_of_lt {p : Fin 7} (hp : p < 6) (c : BitVec 6) (b : BitVec 3) :
    Scans P slot ⟨.rowA, BitVec.ofNat 3 p, c, b⟩ (rowPassEvents P slot p) ⟨.rowA, BitVec.ofNat 3 (p + 1), 0, 2⟩ := by
  refine scans_rowPass p c b fun s => ?_
  have hrow : (s.scanAt ⟨.stbL, BitVec.ofNat 3 p, 0, 2⟩).p.toNat = p := Nat.mod_eq_of_lt (Nat.lt_succ_of_lt p.isLt)
  rw [advanceRow_of_lt (hrow.trans_lt hp), hrow]
  rfl

theorem scans_rowPass_last (c : BitVec 6) (b : BitVec 3) :
    Scans P slot ⟨.rowA, 6, c, b⟩ (rowPassEvents P slot 6) ⟨.post, 6, 0, 2⟩ :=
  scans_rowPass 6 c b fun s => advanceRow_of_last (s := s.scanAt ⟨.stbL, 6, 0, 2⟩) (Nat.le_refl 6)

/-- The seven passes (rule R87). -/
theorem scans_refresh (c : BitVec 6) (b : BitVec 3) :
    Scans P slot ⟨.rowA, 0, c, b⟩ (refreshEvents P slot) ⟨.post, 6, 0, 2⟩ := by
  have hpass {p : Fin 7} (hp : p < 6) := scans_rowPass_of_lt (P := P) (slot := slot) hp 0 2
  rw [refreshEvents_eq]
  exact (scans_rowPass_of_lt (p := 0) (by decide) c b).trans <| (hpass (p := 1) (by decide)).trans <|
    (hpass (p := 2) (by decide)).trans <| (hpass (p := 3) (by decide)).trans <| (hpass (p := 4) (by decide)).trans <|
    (hpass (p := 5) (by decide)).trans (scans_rowPass_last 0 2)

end Scans

/-! ## The lines after a refresh -/

/-- The slots from `c` down to 0 leave the clock low and shift data at the last pixel of slot 0. -/
theorem LineLevels.drive_slots (lv : LineLevels) (glyph : Nat → Byte) (c : Nat) :
    lv.drive ((List.range (c + 1)).reverse.flatMap fun c => charBitsEvents (glyph c)) =
      { lv with sclk := some false, sdata := some ((glyph 0).getLsbD 2) } := by
  induction c generalizing lv with
  | zero => rfl
  | succ c ih =>
    rw [List.range_succ, List.reverse_append, List.flatMap_append, LineLevels.drive_append, ih]
    rfl

/-- A pass drives all six lines, so that they do not depend on the pass before it (rules R87, R99). -/
theorem LineLevels.drive_rowPassEvents (lv : LineLevels) (P : Params) (slot : Nat → Byte) (p : Fin 7) :
    lv.drive (rowPassEvents P slot p) =
      { sclk := some false, sdata := some ((glyphByte P (slot 0) (passGlyphRow p)).getLsbD 2), stb := some false,
        rowa := some (rowSelectBit (BitVec.ofNat 3 p) 0), rowb := some (rowSelectBit (BitVec.ofNat 3 p) 1),
        rowc := some (rowSelectBit (BitVec.ofNat 3 p) 2) } := by
  rw [rowPassEvents, LineLevels.drive_append, LineLevels.drive_append, slotOrder, LineLevels.drive_slots]
  rfl

theorem LineLevels.drive_refreshEvents (lv : LineLevels) (P : Params) (slot : Nat → Byte) :
    lv.drive (refreshEvents P slot) =
      { sclk := some false, sdata := some ((glyphByte P (slot 0) 0).getLsbD 2), stb := some false,
        rowa := some false, rowb := some true, rowc := some true } := by
  simp only [refreshEvents_eq, LineLevels.drive_append, LineLevels.drive_rowPassEvents]
  rfl

/-! ## The statements -/

/-- Settles O20: the refresh as a run through the scan points, from the one of the state. -/
theorem refreshEmitsTheTraceOfTheBuffer : Obligations.RefreshEmitsTheTraceOfTheBuffer := by
  intro s hs hphase hp
  have hat : s.scanAt ⟨.rowA, 0, s.c, s.b⟩ = s := by
    have hcode : Phase.rowA.code = s.phase := hphase.symm
    rw [State.scanAt, hcode, ← hp]
  have hrun := scans_refresh s.c s.b s hs rfl rfl
  rw [length_refreshEvents, hat] at hrun
  refine ⟨_, hrun, rfl, ?_⟩
  rw [State.emit, LineLevels.drive_refreshEvents]
  rfl

/-- Settles O21: the counts in a row select, a character and a latch, each times its number. -/
theorem refreshHasTheSameCountsForAllContents : Obligations.RefreshHasTheSameCountsForAllContents := by
  intro P slot
  exact ⟨length_refreshEvents P slot,
    countP_refreshEvents _ 0 6 0 (fun _ => rfl) (fun _ => rfl) rfl P slot,
    countP_refreshEvents _ 0 12 0 (fun _ => rfl) (fun _ => rfl) rfl P slot,
    countP_refreshEvents _ 0 6 0 (fun _ => rfl) (fun _ => rfl) rfl P slot,
    countP_refreshEvents _ 0 0 1 (fun _ => rfl) (fun _ => rfl) rfl P slot,
    countP_refreshEvents _ 0 0 1 (fun _ => rfl) (fun _ => rfl) rfl P slot,
    countP_refreshEvents _ 3 0 0 (fun _ => rfl) (fun _ => rfl) rfl P slot⟩

/-- Settles O22: pass by pass, the skeleton of the events is that of a refresh of blank characters. -/
theorem onlyDataLevelsDependOnTheContents : Obligations.OnlyDataLevelsDependOnTheContents := by
  intro P P' slot slot'
  change (refreshEvents P slot).map LineEvent.skeleton = (refreshEvents P' slot').map LineEvent.skeleton
  simp only [refreshEvents, List.map_flatMap, map_skeleton_rowPassEvents]

end Sys2Proof.Machine
end

section
/-! # The governing loop: the statements of `43_loop_dispatch.md`, and the start of `70_reset_and_hazards.md`

What POST counts (rules R101, R105), HALT and the one way into it (rules R108, R117), the state that a start leaves and the
invariants that it meets (rules R103, R118, R158, R159), and the configurations that never start (rule R104). -/

namespace Sys2Proof.Machine

/-! ## POST -/

/-- THRESHOLD() as the sum of rule R105. -/
theorem threshold_eq (s : State) :
    threshold s =
      s.scrollDelay.toNat + if (s.inMode .up ∨ s.inMode .down) ∧ s.lineCtr = 3 then s.threeLineDelay.toNat else 0 := by
  simp only [threshold, Bool.and_eq_true, isLineScroll_iff, beq_iff_eq]

/-- In STATIC, or once frozen, POST counts nothing. -/
theorem countRefresh_of_idle {s : State} (h : s.inMode .static ∨ s.frozen = true) :
    countRefresh s = { s with p := 0, phase := Phase.rowA.code } := if_pos h

/-- In the other modes, until frozen, POST counts the refresh, and the count that reaches the threshold starts a tick. -/
theorem countRefresh_of_counting {s : State} (hm : ¬ s.inMode .static) (hf : s.frozen = false) :
    countRefresh s =
      if threshold s ≤ s.refreshCtr + 1 then { s with refreshCtr := 0, phase := Phase.tick.code }
      else { s with refreshCtr := s.refreshCtr + 1, p := 0, phase := Phase.rowA.code } :=
  if_neg (by simp [hm, hf])

/-! ## The way into HALT -/

/-- A move of the sequencer to another phase does not halt the block. -/
theorem goto_not_halt {P : Phase} (hP : P ≠ .halt) (s : State) : ¬ (goto P s).inPhase .halt :=
  fun h => hP (Phase.code_inj.mp h)

theorem endTick_not_halt (s : State) : ¬ (endTick s).inPhase .halt := goto_not_halt Phase.noConfusion _

theorem advanceBit_not_halt (s : State) : ¬ (advanceBit s).inPhase .halt := by
  unfold advanceBit
  split
  · exact goto_not_halt Phase.noConfusion _
  · split <;> exact goto_not_halt Phase.noConfusion _

theorem advanceRow_not_halt (s : State) : ¬ (advanceRow s).inPhase .halt := by
  unfold advanceRow
  split <;> exact goto_not_halt Phase.noConfusion _

theorem countRefresh_not_halt (s : State) : ¬ (countRefresh s).inPhase .halt := by
  unfold countRefresh
  split
  · exact goto_not_halt Phase.noConfusion _
  · dsimp only
    split <;> exact goto_not_halt Phase.noConfusion _

theorem tickSnow_not_halt (s : State) : ¬ (tickSnow s).inPhase .halt := by
  rw [tickSnow_eq]
  exact endTick_not_halt s

theorem tickFw_not_halt (s : State) : ¬ (tickFw s).inPhase .halt := by
  obtain ⟨tb, v, script, n, htick⟩ := tickFw_writes s
  rw [htick]
  exact endTick_not_halt s

theorem endLine_not_halt (s : State) : ¬ (endLine s).inPhase .halt := by
  unfold endLine
  split
  · exact goto_not_halt Phase.noConfusion _
  · exact endTick_not_halt _

theorem storeInLine_not_halt (x : Byte) (s : State) : ¬ (storeInLine x s).inPhase .halt := by
  unfold storeInLine
  dsimp only
  split
  · exact endTick_not_halt _
  · exact goto_not_halt Phase.noConfusion _

/-- EOF_POLICY halts the block only where EXIT_ON_EOF = 1 (rule R117). -/
theorem exitOnEof_of_eofPolicy_halt {s : State} (h : (eofPolicy s).inPhase .halt) : cfgExitOnEof s.cfg = true := by
  by_contra hexit
  rw [eofPolicy, if_neg hexit] at h
  exact endTick_not_halt _ h

/-- A read in RD_L that halts the block is one of end-of-input. -/
theorem eof_of_readLeft_halt {x : SymClass} {s : State} (h : (readLeft x s).inPhase .halt) :
    x = .eof ∧ cfgExitOnEof s.cfg = true := by
  cases x with
  | eof => exact ⟨rfl, exitOnEof_of_eofPolicy_halt h⟩
  | lf | cr => exact absurd h (goto_not_halt Phase.noConfusion s)
  | ff | high | normal => exact absurd h (endTick_not_halt _)

/-- A read in RD_V that halts the block is one of end-of-input. -/
theorem eof_of_readLine_halt {x : SymClass} {s : State} (h : (readLine x s).inPhase .halt) :
    x = .eof ∧ cfgExitOnEof s.cfg = true := by
  cases x with
  | eof => exact ⟨rfl, exitOnEof_of_eofPolicy_halt h⟩
  | lf => exact absurd h (endLine_not_halt s)
  | cr => exact absurd h (goto_not_halt Phase.noConfusion s)
  | ff => exact absurd h (endTick_not_halt _)
  | high byte | normal byte => exact absurd h (storeInLine_not_halt byte s)

/-- A step into HALT is a read of end-of-input with EXIT_ON_EOF = 1 (rules R108, R117). -/
theorem StepCase.reads_eof_of_halt {s t : State} (hcase : StepCase s t) (ht : t.inPhase .halt) :
    s.inReadPhase ∧ cfgExitOnEof s.cfg = true ∧ ∃ x rest, s.inScript = x :: rest ∧ classOf x = .eof := by
  cases hcase with
  | rowA | rowB | rowC | data | clkH | stbH | tickLeft | tickUp | tickDown =>
    exact absurd ht (goto_not_halt Phase.noConfusion _)
  | clkL => exact absurd ht (advanceBit_not_halt _)
  | stbL => exact absurd ht (advanceRow_not_halt _)
  | post => exact absurd ht (countRefresh_not_halt s)
  | tickDate => exact absurd ht (endTick_not_halt _)
  | tickSnow => exact absurd ht (tickSnow_not_halt s)
  | tickFw => exact absurd ht (tickFw_not_halt s)
  | wait h => rcases h with h | h <;> exact absurd (Phase.code_inj.mp (h.symm.trans ht)) Phase.noConfusion
  | readLeft h x rest hx =>
    obtain ⟨heof, hexit⟩ := eof_of_readLeft_halt ht
    exact ⟨.inl h, hexit, x, rest, hx, heof⟩
  | readLine h x rest hx =>
    obtain ⟨heof, hexit⟩ := eof_of_readLine_halt ht
    exact ⟨.inr h, hexit, x, rest, hx, heof⟩

/-! ## The state that a start leaves -/

/-- The byte that STATIC_LOAD stores, with the normalization of rule R83 written out (rule R118). -/
theorem staticByte_eq (text : List Byte) (i : Nat) :
    staticByte text i = ((text[i]?).map fun x => if 127 < x.toNat then 0x00 else x).getD 0x20 := by
  unfold staticByte
  split
  · next h =>
    rw [List.getElem?_eq_getElem h, Option.map_some, Option.getD_some]
    split
    · next hx => exact norm_of_gt hx
    · next hx => exact norm_of_le (Nat.le_of_not_lt hx)
  · next h =>
    rw [List.getElem?_eq_none (Nat.le_of_not_lt h)]
    rfl

theorem start_mode (w : BitVec 8) (m : Mode) (s : State) : (start w m s).mode = m.code := by rw [start_eq]

/-- The buffer after a start: the text in STATIC, else nothing but spaces (rules R118, R158). -/
theorem read_start (w : BitVec 8) (m : Mode) (s : State) (i : Nat) :
    (start w m s).tb.read i = if m = .static ∧ i < 45 then staticByte s.staticText i else 0x20 := by
  rw [start_eq]
  by_cases hm : m = .static
  · simp only [hm, if_true, true_and]
    exact read_staticFill s.staticText i
  · simp only [hm, if_false, false_and]
    rfl

theorem Mode.code_eq_zero_iff {m : Mode} : m.code = 0 ↔ m = .static := by cases m <;> decide

/-- A start gives the state of rules R118, R158 and R159. -/
theorem start_startsRun (w : BitVec 8) (m : Mode) (s : State) : s.StartsRun w m.code (start w m s) where
  fields := by rw [start_eq]; rfl
  text i := by simp only [read_start, staticByte_eq, Mode.code_eq_zero_iff]

/-! ## A start meets the invariants -/

theorem Mode.code_le (m : Mode) : m.code.toNat ≤ 6 := by cases m <;> decide

/-- A fresh buffer holds TB in its form, within the bound of rule R21. -/
theorem wf_isAscii_start (w : BitVec 8) (m : Mode) (s : State) :
    (start w m s).tb.wf = true ∧ (start w m s).tb.isAscii = true := by
  rw [start_eq]
  dsimp only
  split
  · exact ⟨Memory.wf_fill Memory.wf_nil _ _ _ (by decide), Memory.isAscii_fill Memory.isAscii_nil _ (staticByte_le _) _⟩
  · exact ⟨Memory.wf_nil, Memory.isAscii_nil⟩

theorem start_inv (w : BitVec 8) (m : Mode) (s : State) : (start w m s).Inv := by
  obtain ⟨hwf, hascii⟩ := wf_isAscii_start w m s
  have hslot : (45 : BitVec 6).toNat ≤ 45 := by decide
  have hbit : 2 ≤ (7 : BitVec 3).toNat := by decide
  rw [start_eq] at hwf hascii ⊢
  refine ⟨rfl, ⟨Phase.code_le .rowA, Nat.zero_le 6, hslot, hbit, Mode.code_le m, hwf, hascii⟩, ?_⟩
  exact State.FlagsAgree.in_phase (P := .rowA)
    ⟨Bool.noConfusion, fun _ => ⟨rfl, rfl⟩, fun _ => rfl, fun _ => rfl, .inl rfl⟩ rfl trivial

/-- Every line is UNK at a start, and the first pass is about to drive the row-select lines (rules R14, R158, R160). -/
theorem start_linesAgree (w : BitVec 8) (m : Mode) (s : State) : (start w m s).LinesAgree := by
  have hunknown : (none : Option Level) ≠ some true := by decide
  rw [start_eq]
  exact State.LinesInPhase.agree (P := .rowA) ⟨rfl, hunknown, hunknown, .inr ⟨rfl, rfl, rfl, rfl⟩⟩

theorem start_linesFollowTrace (w : BitVec 8) (m : Mode) (s : State) : (start w m s).LinesFollowTrace := by
  rw [start_eq]
  intro l
  cases l <;> rfl

/-- STATIC_LOAD leaves the lookahead slot at its reset value, and outside STATIC all slots are there (rules R118, R158). -/
theorem start_lookaheadAgrees (w : BitVec 8) (m : Mode) (s : State) : (start w m s).LookaheadAgrees := by
  have hlookahead : (start w m s).tb.read 45 = 0x20 := by rw [read_start, if_neg (by omega)]
  refine ⟨fun hleft => ?_, fun _ => .inl hlookahead, fun _ _ => hlookahead⟩
  have hm : m ≠ .static := by
    rintro rfl
    exact absurd ((start_mode w .static s).symm.trans hleft) (by decide)
  rw [hlookahead, read_start, if_neg fun h => hm h.1]

/-- A row of the mode decode that answers a next state is a start (rules R61, R103). -/
theorem start_of_exec_cfgRow {i : Instr} (hi : formatOf i = .cfg) {s t : State} (h : exec i s = .next t) :
    ∃ w m, t = start w m s := by
  cases i with
  | modeStatic | modeDate | modeSnow | modeFw | modeLeft | modeUp | modeDown =>
    cases h
    exact ⟨_, _, rfl⟩
  | modeRefuseBadScroll | modeRefuseBadEffect | modeRefuseStaticDate | modeRefuseStaticSnow | modeRefuseStaticFw
  | modeRefuseDateSnow | modeRefuseDateFw => cases h
  | _ => cases hi

/-! ## A refused configuration -/

/-- A block before the start waits on no symbol. -/
theorem waits_of_not_started {s : State} (hs : s.started = false) : s.waits = false := by
  simp [State.waits, State.reads, hs]

/-- A run from before the start whose first step is refused is that refusal. -/
theorem runPosts_of_refused_start {s : State} (hs : s.started = false) {r : Refusal} (h : step s = .refused r)
    (n steps : Nat) : runPosts (steps + 1) (n + 1) s = .refused r := by
  simp [runPosts, hs, waits_of_not_started hs, h]

theorem Scenario.initial_started (P : Params) (sc : Scenario) : (sc.initial P).started = false := rfl

theorem Scenario.initial_cfg (P : Params) (sc : Scenario) : (sc.initial P).cfg = sc.cfg := rfl

/-! ## The statements -/

/-- Settles O27: of the cases of `StepCase`, only a read reaches HALT, and only by EOF_POLICY. -/
theorem haltIsEnteredOnlyByEndOfInput : Obligations.HaltIsEnteredOnlyByEndOfInput := by
  intro s t hs hstep ht
  obtain ⟨hread, hexit, x, rest, hx, heof⟩ := (step_cases hs hstep).reads_eof_of_halt ht
  exact ⟨hread, hexit, x, rest, hx, le_of_classOf_eof heof⟩

/-- Settles O38: each mode row is the start in its mode, and `start_startsRun` says what that leaves. -/
theorem modeRowsStartARunInTheirMode : Obligations.ModeRowsStartARunInTheirMode := fun s _ _ _ =>
  ⟨⟨_, rfl, start_startsRun _ .static s⟩, ⟨_, rfl, start_startsRun _ .date s⟩, ⟨_, rfl, start_startsRun _ .snow s⟩,
    ⟨_, rfl, start_startsRun _ .fw s⟩, ⟨_, rfl, start_startsRun _ .left s⟩, ⟨_, rfl, start_startsRun _ .up s⟩,
    ⟨_, rfl, start_startsRun _ .down s⟩⟩

/-- Settles O50: the step is a start, and every start meets each of the four. -/
theorem everyStartMeetsTheInvariants : Obligations.EveryStartMeetsTheInvariants := by
  intro s t hs hstep
  rw [step_before_start hs] at hstep
  obtain ⟨w, m, rfl⟩ := start_of_exec_cfgRow (decodeCfg_spells s.cfg).format hstep
  exact ⟨start_inv w m s, start_linesAgree w m s, start_linesFollowTrace w m s, start_lookaheadAgrees w m s⟩

/-- Settles O25: POST is `countRefresh`, which counts nothing or compares the count with `threshold`. -/
theorem postCountsTheRefreshAndGatesTheTick : Obligations.PostCountsTheRefreshAndGatesTheTick := by
  intro s T hT
  obtain rfl : T = threshold s := hT.trans (threshold_eq s).symm
  exact ⟨fun h => congrArg _ (countRefresh_of_idle h),
    fun hm hf h => congrArg _ ((countRefresh_of_counting hm hf).trans (if_pos h)),
    fun hm hf h => congrArg _ ((countRefresh_of_counting hm hf).trans (if_neg (Nat.not_le.mpr h)))⟩

/-- Settles O26: the row of HALT is the refusal, and a step in HALT runs that row. -/
theorem haltHasNoStep : Obligations.HaltHasNoStep := fun _ =>
  ⟨rfl, fun hs hp => step_of_phase hs (i := .phaseHalt) (by rw [hp]; rfl)⟩

/-- Settles O39: the first step of the run is the refused row, and each refusal row has its own name. -/
theorem refusedConfigurationsNeverStart : Obligations.RefusedConfigurationsNeverStart := by
  refine ⟨fun P sc n steps r hwf hrefused => ?_, fun _ _ _ _ _ _ _ => ⟨rfl, rfl, rfl, rfl, rfl, rfl, rfl⟩⟩
  have hs := Scenario.initial_started P sc
  have hstep : step (sc.initial P) = .refused r := by
    rw [step_before_start hs, Scenario.initial_cfg, hrefused]
  rw [Scenario.run, if_pos hwf]
  exact runPosts_of_refused_start hs hstep n steps

end Sys2Proof.Machine
end

section
/-! # The input port: the statements of `44_input.md`

The wait of a read phase (rule R109), the step that every state of the run invariant but HALT has (rules R143, R145), and the block
that starts no tick any more (rules R116, R117, R119). -/

namespace Sys2Proof.Machine

/-! ## The wait -/

/-- A read phase with no symbol at the port waits (rule R109). -/
theorem step_of_noSymbol {s : State} (hs : s.started = true) (hp : s.inReadPhase) (hx : s.inScript = []) : step s = .next s := by
  rcases hp with hp | hp
  · rw [step_of_phase hs (i := .phaseRdL) (by rw [hp]; rfl)]
    simp only [exec, execPhaseRdL, hx]
  · rw [step_of_phase hs (i := .phaseRdV) (by rw [hp]; rfl)]
    simp only [exec, execPhaseRdV, hx]

/-! ## Progress -/

/-- A state of the run invariant has a step, but in HALT (rules R143, R145). -/
theorem State.Inv.exists_step {s : State} (h : s.Inv) (hhalt : ¬ s.inPhase .halt) : ∃ t, step s = .next t := by
  obtain ⟨P, hcode⟩ := exists_phase_code h.registers.phase
  have hP : s.inPhase P := hcode.symm
  have hread (hp : s.inReadPhase) : ∃ t, step s = .next t := by
    cases hx : s.inScript with
    | nil => exact ⟨s, step_of_noSymbol h.started hp hx⟩
    | cons x rest => exact hp.elim (fun hp => ⟨_, step_of_rdL h.started hx hp⟩) fun hp => ⟨_, step_of_rdV h.started hx hp⟩
  have hstep : step s = exec (phaseRow P) s := step_of_phase h.started (by rw [hP, decodePhase_code])
  cases P with
  | rowA | rowB | rowC | clkH | clkL | stbH | stbL | post => exact ⟨_, hstep⟩
  | data => exact ⟨_, hstep.trans (exec_phaseData_of_inRange h.registers.slot h.registers.row)⟩
  | tick =>
    have hmode := h.registers.mode
    rw [hstep]
    exact exec_phaseTick_of_mode (h.sequencer.tickHasCase hP) (by bv_omega)
  | rdL => exact hread (.inl hP)
  | rdV => exact hread (.inr hP)
  | halt => exact absurd hP hhalt

/-! ## A block that counts no refresh -/

/-- In STATIC, and once frozen, the block is in no phase that ticks, reads or halts (rules R116, R117, R119). -/
theorem State.Inv.scans_of_idle {s : State} (h : s.Inv) (hidle : s.inMode .static ∨ s.frozen = true) :
    ¬ s.inPhase .tick ∧ ¬ s.inReadPhase ∧ ¬ s.inPhase .halt := by
  rcases hidle with hm | hf
  · have hscroll : ¬ s.inScrollMode := by
      unfold State.inScrollMode State.inMode
      rw [hm]
      decide
    exact ⟨fun hp => h.sequencer.tickHasCase hp hm,
      fun hp => hscroll (hp.imp h.sequencer.readLeft h.sequencer.readLine),
      fun hp => hscroll (h.sequencer.haltScrolls hp).1⟩
  · exact h.sequencer.frozenStops hf

/-- From `s` to `t` the block writes the lines, the trace and the registers of the scan, and nothing else. -/
def State.OnlyScans (s t : State) : Prop :=
  ∃ lv trace P p c b, t = { s with lv := lv, trace := trace, phase := P, p := p, c := c, b := b }

/-- In STATIC, and once frozen, every step is a scan step or the POST that counts nothing (rule R101). -/
theorem StepCase.onlyScans {s t : State} (hcase : StepCase s t) (h : s.Inv) (hidle : s.inMode .static ∨ s.frozen = true) :
    State.OnlyScans s t := by
  obtain ⟨htick, hread, -⟩ := h.scans_of_idle hidle
  cases hcase with
  | rowA | rowB | rowC | data | clkH | stbH => exact ⟨_, _, _, _, _, _, rfl⟩
  | clkL =>
    obtain ⟨c, b, P, hadvance⟩ := advanceBit_writes (setLine .sclk false s)
    exact ⟨_, _, P, _, c, b, hadvance⟩
  | stbL =>
    obtain ⟨p, P, hadvance⟩ := advanceRow_writes (setLine .stb false s)
    exact ⟨_, _, P, p, _, _, hadvance⟩
  | post => exact ⟨_, _, _, _, _, _, countRefresh_of_idle hidle⟩
  | tickDate hp | tickSnow hp | tickFw hp | tickLeft hp | tickUp hp | tickDown hp => exact absurd hp htick
  | wait hp => exact absurd hp hread
  | readLeft hp => exact absurd (.inl hp) hread
  | readLine hp => exact absurd (.inr hp) hread

theorem State.OnlyScans.trans {s t u : State} (h : State.OnlyScans s t) (hu : State.OnlyScans t u) : State.OnlyScans s u := by
  obtain ⟨lv, trace, P, p, c, b, rfl⟩ := h
  obtain ⟨lv', trace', P', p', c', b', rfl⟩ := hu
  exact ⟨lv', trace', P', p', c', b', rfl⟩

/-- In STATIC, and once frozen, the block steps forever and only scans (rules R116, R117, R119). -/
theorem run_onlyScans {s : State} (h : s.Inv) (hidle : s.inMode .static ∨ s.frozen = true) (n : Nat) :
    ∃ t : State, Host.Core.run Sys2Proof.core n s = .next t ∧ t.Inv ∧ State.OnlyScans s t := by
  refine run_of_progress (P := fun t => t.Inv ∧ State.OnlyScans s t) (fun t ⟨hinv, hscans⟩ => ?_) n
    ⟨h, _, _, _, _, _, _, rfl⟩
  have hidle' : t.inMode .static ∨ t.frozen = true := by
    obtain ⟨lv, trace, P, p, c, b, rfl⟩ := hscans
    exact hidle
  obtain ⟨-, -, hhalt⟩ := hinv.scans_of_idle hidle'
  obtain ⟨u, hstep⟩ := hinv.exists_step hhalt
  exact ⟨u, hstep, stepKeepsTheRunInvariant t u hinv hstep,
    hscans.trans ((step_cases hinv.started hstep).onlyScans hinv hidle')⟩

/-! ## The statements -/

/-- Settles O10: both read phases wait on an empty port. -/
theorem readPhaseWaitsWithoutSymbol : Obligations.ReadPhaseWaitsWithoutSymbol := fun _ => step_of_noSymbol

/-- Settles O58: a frozen block only scans, and a scan writes none of the four. -/
theorem frozenBlockRefreshesForeverAndReadsNothing : Obligations.FrozenBlockRefreshesForeverAndReadsNothing := by
  intro s n h hf
  obtain ⟨t, hrun, -, lv, trace, P, p, c, b, rfl⟩ := run_onlyScans h (.inr hf) n
  exact ⟨_, hrun, hf, rfl, rfl, rfl⟩

end Sys2Proof.Machine
end

section
/-! # The text modes: the statements of `45_text_modes.md`, and slot 45 of `46_scroll.md` section 2

The block in STATIC (rule R119), the second that a DATE tick depends on (rule R122), and the lookahead slot (rules R120, R124, R130). -/

namespace Sys2Proof.Machine

/-! ## The text of a second -/

/-- DATE_TEXT depends on the second only (rule R121). -/
theorem dateText_congr (P : Params) {t t' : Instant} (h : t.second = t'.second) : dateText P t = dateText P t' := by
  simp only [dateText, readingAndLayout, h]

/-- The buffer that a DATE tick leaves does not depend on the one before it (rule R120). -/
theorem dated_congr {m m' : Memory} (h : m.wf = true) (h' : m'.wf = true) (d : Vector Code7 45) : dated d m = dated d m' := by
  refine Memory.wf_ext (wf_dated h d) (wf_dated h' d) fun i => ?_
  rw [read_dated h, read_dated h']
  split_ifs with hvisible hlast
  · rfl
  · rfl
  · have hi : Config.nSlots ≤ i := by simp only [Config.nSlots]; omega
    rw [Memory.wfFrom_read_ge h hi, Memory.wfFrom_read_ge h' hi]

/-- A DATE tick leaves the terminator in the lookahead slot (rule R120). -/
theorem tickDate_lookahead {s : State} (h : s.tb.wf = true) : (tickDate s).tb.read 45 = 0x00 := by
  rw [tickDate_eq]
  exact read_dated h _ 45

/-! ## The lookahead slot -/

section Lookahead

variable {s t : State}

theorem modeOfCode_code (m : Mode) : modeOfCode m.code = some m := by cases m <;> rfl

/-- The modes have different codes: a state is in one of them at most (rule R60). -/
theorem State.not_inMode_of_ne {m m' : Mode} (h : s.inMode m) (hne : m ≠ m') : ¬ s.inMode m' := fun h' =>
  hne (Option.some_injective _ (by rw [← modeOfCode_code m, ← modeOfCode_code m', ← h, ← h']))

theorem State.LookaheadAgrees.of_left (hm : t.inMode .left) (h : t.tb.read 45 = t.tb.read 44) : t.LookaheadAgrees where
  left _ := h
  date hdate := absurd hdate (State.not_inMode_of_ne hm (by decide))
  others hleft := absurd hm hleft

theorem State.LookaheadAgrees.of_date (hm : t.inMode .date) (h : t.tb.read 45 = 0x20 ∨ t.tb.read 45 = 0x00) :
    t.LookaheadAgrees where
  left hleft := absurd hleft (State.not_inMode_of_ne hm (by decide))
  date _ := h
  others _ hdate := absurd hm hdate

/-- Slot 45 keeps its agreement with MODE if it is not written, nor, in ScrollLeft, slot 44. -/
theorem State.LookaheadAgrees.of_kept (h : s.LookaheadAgrees) (hm : t.mode = s.mode) (h45 : t.tb.read 45 = s.tb.read 45)
    (h44 : s.inMode .left → t.tb.read 44 = s.tb.read 44) : t.LookaheadAgrees := by
  obtain ⟨hleft, hdate, hothers⟩ := h
  constructor
  · rw [State.inMode, hm, h45]
    exact fun hl => (hleft hl).trans (h44 hl).symm
  · rwa [State.inMode, hm, h45]
  · rwa [State.inMode, State.inMode, hm, h45]

/-- A step outside ScrollLeft that writes visible slots only keeps the agreement. -/
theorem State.LookaheadAgrees.of_sameFrom (h : s.LookaheadAgrees) (hm : t.mode = s.mode) (hleft : ¬ s.inMode .left)
    (htb : Memory.SameFrom 45 s.tb t.tb) : t.LookaheadAgrees :=
  h.of_kept hm (htb 45 le_rfl) fun hl => absurd hl hleft

/-- A ScrollLeft store puts the byte into slots 44 and 45 both (rules R124, R130). -/
theorem scrolledLeft_lookahead {m : Memory} (h : m.wf = true) (x : Byte) :
    (scrolledLeft x m).read 45 = (scrolledLeft x m).read 44 := by
  rw [read_scrolledLeft h, read_scrolledLeft h, if_pos (.inr rfl), if_pos (.inl rfl)]

theorem readLeft_lookahead (hwf : s.tb.wf = true) (h : s.tb.read 45 = s.tb.read 44) (x : SymClass) :
    (readLeft x s).tb.read 45 = (readLeft x s).tb.read 44 := by
  cases x with
  | eof =>
    have htb : (readLeft .eof s).tb = s.tb := eofPolicy_tb s
    rw [htb, h]
  | lf | cr => exact h
  | ff => exact scrolledLeft_lookahead hwf 12
  | high byte | normal byte => exact scrolledLeft_lookahead hwf byte

/-- The step of a DATE tick (rules R62, R102). -/
theorem step_of_tickDate (hs : s.started = true) (hp : s.inPhase .tick) (hm : s.inMode .date) :
    step s = .next (tickDate s) :=
  (step_of_phase hs (i := .phaseTick) (by rw [hp]; rfl)).trans (exec_phaseTick_date hm)

/-- A step of RD_L keeps slots 44 and 45 equal, whether it waits or reads (rules R109, R124). -/
theorem step_rdL_lookahead (hs : s.started = true) (hp : s.inPhase .rdL) (hwf : s.tb.wf = true)
    (h : s.tb.read 45 = s.tb.read 44) (hstep : step s = .next t) : t.tb.read 45 = t.tb.read 44 := by
  cases hx : s.inScript with
  | nil =>
    cases (step_of_noSymbol hs (.inl hp) hx).symm.trans hstep
    exact h
  | cons x rest =>
    cases (step_of_rdL hs hx hp).symm.trans hstep
    exact readLeft_lookahead (s := consumeSymbol s) hwf h _

end Lookahead

/-! ## The statements -/

/-- Settles O60: in STATIC the block only scans, and a state of the run invariant in STATIC is in no phase that ticks or halts. -/
theorem staticTextNeverChanges : Obligations.StaticTextNeverChanges := by
  intro s n h hm
  obtain ⟨t, hrun, hinv, hscans⟩ := run_onlyScans h (.inl hm) n
  obtain ⟨lv, trace, P, p, c, b, rfl⟩ := hscans
  obtain ⟨htick, -, hhalt⟩ := hinv.scans_of_idle (.inl hm)
  exact ⟨_, hrun, rfl, h.sequencer.notCounting hm, rfl, htick, hhalt⟩

/-- Settles O29: both ticks are `tickDate`, whose buffer is fixed by DATE_TEXT of the second. -/
theorem dateTickIsDeterminedByTheSecond : Obligations.DateTickIsDeterminedByTheSecond := by
  intro s s' t t' hwf hwf' hm hm' hparams hsecond ht ht'
  cases (exec_phaseTick_date hm).symm.trans ht
  cases (exec_phaseTick_date hm').symm.trans ht'
  refine ⟨?_, tickDate_lookahead hwf, fun i hi => ?_⟩
  · rw [tickDate_eq, tickDate_eq, ← hparams, dateText_congr s.params hsecond]
    exact dated_congr hwf hwf' _
  · rw [tickDate_eq, read_dated hwf, dif_pos hi]

/-- Settles O57: slot 45 is written only by the DATE tick and by the reads of ScrollLeft, the cases of `BufferCase` that reach it. -/
theorem stepKeepsTheLookaheadSlot : Obligations.StepKeepsTheLookaheadSlot := by
  intro s t hinv h hstep
  have hwf := hinv.registers.buffer
  have hcase := step_cases hinv.started hstep
  obtain ⟨-, hmode, -⟩ := hcase.writes.config
  cases hcase.buffer hwf with
  | kept htb => exact h.of_kept hmode (by rw [htb]) fun _ => by rw [htb]
  | tickDate hp hm htb =>
    cases (step_of_tickDate hinv.started hp hm).symm.trans hstep
    exact .of_date hm (.inr (tickDate_lookahead hwf))
  | tickVisible hp hm htb =>
    have hleft : ¬ s.inMode .left := by
      rcases hm with hm | hm | hm | hm <;> exact State.not_inMode_of_ne hm (by decide)
    exact h.of_sameFrom hmode hleft htb
  | readLeft hp htb =>
    have hm := hinv.sequencer.readLeft hp
    exact .of_left (hmode.trans hm) (step_rdL_lookahead hinv.started hp hwf (h.left hm) hstep)
  | readLine hp htb =>
    have hleft : ¬ s.inMode .left := by
      rcases hinv.sequencer.readLine hp with hm | hm <;> exact State.not_inMode_of_ne hm (by decide)
    obtain ⟨hk, -⟩ := hinv.sequencer.fillOpen hp
    exact h.of_sameFrom hmode hleft (htb (by bv_omega))

end Sys2Proof.Machine
end

section
/-! # Scrolling: the statements of `46_scroll.md`, and the symbol rows outside the read phases

The ticks of ScrollLeft, ScrollUp and ScrollDown (rules R123, R125, R126), what RD_L and RD_V do with each class of symbol (rules R124,
R132), the fill of a whole line (rules R127, R128), and the phases in which no symbol is on offer (rules R134, R155, R156). -/

namespace Sys2Proof.Machine

/-! ## The ticks -/

/-- In MODE LEFT the tick is that of ScrollLeft (rule R102). -/
theorem exec_phaseTick_left {s : State} (hm : s.inMode .left) : exec .phaseTick s = .next (tickLeft s) := by
  rw [exec, execPhaseTick, hm, modeOfCode_code]

/-- In MODE UP the tick is that of ScrollUp (rule R102). -/
theorem exec_phaseTick_up {s : State} (hm : s.inMode .up) : exec .phaseTick s = .next (tickUp s) := by
  rw [exec, execPhaseTick, hm, modeOfCode_code]

/-- In MODE DOWN the tick is that of ScrollDown (rule R102). -/
theorem exec_phaseTick_down {s : State} (hm : s.inMode .down) : exec .phaseTick s = .next (tickDown s) := by
  rw [exec, execPhaseTick, hm, modeOfCode_code]

/-! ## A read of a symbol at the port -/

theorem consumeSymbol_of_script {s : State} {x : BitVec 9} {rest : List (BitVec 9)} (hx : s.inScript = x :: rest) :
    consumeSymbol s = { s with inScript := rest } := by rw [consumeSymbol, hx, List.tail_cons]

/-- RD_L with a symbol at the port (rules R42, R124). -/
theorem exec_phaseRdL_of_script {s : State} {x : BitVec 9} {rest : List (BitVec 9)} (hx : s.inScript = x :: rest) :
    exec .phaseRdL s = .next (readLeft (classOf x) { s with inScript := rest }) := by
  rw [← consumeSymbol_of_script hx, exec, execPhaseRdL, hx]

/-- RD_V with a symbol at the port (rules R42, R132). -/
theorem exec_phaseRdV_of_script {s : State} {x : BitVec 9} {rest : List (BitVec 9)} (hx : s.inScript = x :: rest) :
    exec .phaseRdV s = .next (readLine (classOf x) { s with inScript := rest }) := by
  rw [← consumeSymbol_of_script hx, exec, execPhaseRdV, hx]

theorem eofPolicy_of_exit {s : State} (h : cfgExitOnEof s.cfg = true) : eofPolicy s = { s with phase := Phase.halt.code } := by
  rw [eofPolicy_eq, if_pos h]

theorem eofPolicy_of_stay {s : State} (h : cfgExitOnEof s.cfg = false) :
    eofPolicy s = { s with frozen := true, p := 0, phase := Phase.rowA.code } := by
  rw [eofPolicy_eq, if_neg (Bool.eq_false_iff.mp h)]

/-- RD_L stores every byte but LF and CR, a form-feed included (rule R124). -/
theorem readLeft_stored {x : BitVec 9} (h : x.toNat < 256) (hlf : x.toNat ≠ 10) (hcr : x.toNat ≠ 13) (s : State) :
    readLeft (classOf x) s = storeLeft (x.extractLsb' 0 8) s := by
  by_cases hff : x.toNat = 12
  · have hbyte : x.extractLsb' 0 8 = 12 := by
      rw [BitVec.eq_of_toNat_eq (x := x) (y := 12) hff]
      rfl
    rw [classOf_ff hff, hbyte, readLeft]
  · rcases classOf_stored h hlf hff hcr with hclass | hclass <;> rw [hclass, readLeft]

/-- RD_V stores every byte but LF, FF and CR (rule R132). -/
theorem readLine_stored {x : BitVec 9} (h : x.toNat < 256) (hlf : x.toNat ≠ 10) (hff : x.toNat ≠ 12) (hcr : x.toNat ≠ 13)
    (s : State) : readLine (classOf x) s = storeInLine (x.extractLsb' 0 8) s := by
  rcases classOf_stored h hlf hff hcr with hclass | hclass <;> rw [hclass, readLine]

/-! ## What RD_V does in a fill -/

/-- The LF after a full line is absorbed (rule R133). -/
theorem endLine_of_wrapped {s : State} (h : s.k = 0 ∧ s.wrapPending = true) :
    endLine s = { s with wrapPending := false, phase := Phase.rdV.code } := if_pos h

/-- Any other LF ends the fill and counts a line (rule R132). -/
theorem endLine_of_not_wrapped {s : State} (h : ¬ (s.k = 0 ∧ s.wrapPending = true)) :
    endLine s = { s with wrapPending := false, lineCtr := s.lineCtr + 1, p := 0, phase := Phase.rowA.code } := if_neg h

/-- A character before the fifteenth leaves the fill open (rules R127, R132). -/
theorem storeInLine_of_open {s : State} (hk : s.k.toNat < 14) (x : Byte) :
    storeInLine x s =
      { s with
        tb := s.tb.write (fillBase s.mode + s.k.toNat) (norm x), wrapPending := false, k := s.k + 1, phase := Phase.rdV.code } :=
  have hopen : s.k + 1 ≠ 15 := by bv_omega
  if_neg hopen

/-- The fifteenth character ends the fill, counts a line and sets wrap_pending (rules R127, R132, R133). -/
theorem storeInLine_of_last {s : State} (hk : s.k.toNat = 14) (x : Byte) :
    storeInLine x s =
      { s with
        tb := s.tb.write (fillBase s.mode + s.k.toNat) (norm x), wrapPending := true, k := 15, lineCtr := s.lineCtr + 1, p := 0,
        phase := Phase.rowA.code } := by
  have hlast : s.k + 1 = 15 := by bv_omega
  rw [← hlast]
  exact if_pos hlast

/-! ## The fill of a line -/

/-- A byte that a fill stores as it is: at most 127, and none of LF, FF and CR (rules R57, R83, R132). -/
abbrev IsLineCharacter (x : Byte) : Prop := x.toNat ≤ 127 ∧ x.toNat ≠ 10 ∧ x.toNat ≠ 12 ∧ x.toNat ≠ 13

/-- From `s` to `t` the fill stores the characters `L`, the last of them the fifteenth of its line, and reads no further than
`rest` (rules R127, R132). -/
structure State.FillsLine (s : State) (L : List Byte) (rest : List (BitVec 9)) (t : State) : Prop where
  stored : ∀ i, (hi : i < L.length) → t.tb.read (fillBase s.mode + s.k.toNat + i) = L[i]
  kept : ∀ i, i < fillBase s.mode + s.k.toNat ∨ fillBase s.mode + s.k.toNat + L.length ≤ i → t.tb.read i = s.tb.read i
  state : t = { s with
    inScript := rest, tb := t.tb, k := 15, wrapPending := true, lineCtr := s.lineCtr + 1, p := 0, phase := Phase.rowA.code }

/-- The open fill after the character `x` is stored, with `rest` left at the port. -/
def State.withCharacter (s : State) (x : Byte) (rest : List (BitVec 9)) : State :=
  { s with
    inScript := rest, tb := s.tb.write (fillBase s.mode + s.k.toNat) x, wrapPending := false, k := s.k + 1,
    phase := Phase.rdV.code }

section Fill

variable {s : State} {x : Byte} {rest : List (BitVec 9)}

/-- RD_V with a character of a line at the port (rule R132). -/
theorem step_of_lineCharacter (hs : s.started = true) (hp : s.inPhase .rdV) (hchar : IsLineCharacter x)
    (hx : s.inScript = x.setWidth 9 :: rest) : step s = .next (storeInLine x { s with inScript := rest }) := by
  obtain ⟨hle, hlf, hff, hcr⟩ := hchar
  have hnat : (x.setWidth 9).toNat = x.toNat := BitVec.toNat_setWidth_of_le (by decide)
  rw [step_of_rdV hs hx hp, consumeSymbol_of_script hx,
    readLine_stored (by omega) (by omega) (by omega) (by omega),
    BitVec.extractLsb'_setWidth_of_le (by decide), BitVec.extractLsb'_eq_self]

theorem storeInLine_eq_withCharacter (hk : s.k.toNat < 14) (hchar : IsLineCharacter x) :
    storeInLine x { s with inScript := rest } = s.withCharacter x rest := by
  rw [storeInLine_of_open (s := { s with inScript := rest }) hk, norm_of_le hchar.1]
  rfl

/-- The fifteenth character alone fills its line. -/
theorem State.FillsLine.last (hk : s.k.toNat = 14) (hwf : s.tb.wf = true) (hchar : IsLineCharacter x) :
    s.FillsLine [x] rest (storeInLine x { s with inScript := rest }) := by
  have hread (i : Nat) : (storeInLine x { s with inScript := rest }).tb.read i =
      if i = fillBase s.mode + s.k.toNat then x else s.tb.read i := by
    rw [storeInLine_tb, Memory.read_write hwf, norm_of_le hchar.1]
  refine ⟨fun i hi => ?_, fun i hi => ?_, ?_⟩
  · have hfirst : i = 0 := Nat.lt_one_iff.mp hi
    subst hfirst
    exact (hread _).trans (if_pos rfl)
  · rw [List.length_singleton] at hi
    exact (hread i).trans (if_neg (by omega))
  · rw [storeInLine_of_last (s := { s with inScript := rest }) hk]

/-- A character before the fifteenth, then the rest of the line. -/
theorem State.FillsLine.cons {L : List Byte} {script : List (BitVec 9)} {t : State} (hk : s.k.toNat < 14) (hwf : s.tb.wf = true)
    (h : (s.withCharacter x script).FillsLine L rest t) : s.FillsLine (x :: L) rest t := by
  have hread (i : Nat) : (s.withCharacter x script).tb.read i = if i = fillBase s.mode + s.k.toNat then x else s.tb.read i :=
    Memory.read_write hwf _ _ _
  have hmode : (s.withCharacter x script).mode = s.mode := rfl
  have hnext : (s.withCharacter x script).k.toNat = s.k.toNat + 1 := by
    rw [State.withCharacter]
    bv_omega
  obtain ⟨hstored, hkept, hstate⟩ := h
  rw [hmode, hnext] at hstored hkept
  refine ⟨fun i hi => ?_, fun i hi => ?_, hstate⟩
  · cases i with
    | zero => exact (hkept _ (.inl (by omega))).trans ((hread _).trans (if_pos rfl))
    | succ i =>
      rw [List.getElem_cons_succ, ← hstored i (Nat.lt_of_succ_lt_succ hi)]
      congr 1
      omega
  · rw [List.length_cons] at hi
    exact (hkept i (by omega)).trans ((hread i).trans (if_neg (by omega)))

end Fill

/-- The characters that are missing from a line fill it, one step each (rules R127, R128, R132). -/
theorem run_fillsLine {s : State} {L : List Byte} {rest : List (BitVec 9)} (hs : s.started = true) (hp : s.inPhase .rdV)
    (hwf : s.tb.wf = true) (hne : L ≠ []) (hk : s.k.toNat + L.length = 15) (hL : ∀ x ∈ L, IsLineCharacter x)
    (hx : s.inScript = symbolsOf L ++ rest) :
    ∃ t : State, Host.Core.run Sys2Proof.core L.length s = .next t ∧ s.FillsLine L rest t := by
  induction L generalizing s with
  | nil => exact absurd rfl hne
  | cons x L ih =>
    have ⟨hchar, hrest⟩ := List.forall_mem_cons.mp hL
    have hstep := step_of_lineCharacter (rest := symbolsOf L ++ rest) hs hp hchar hx
    rw [List.length_cons] at hk ⊢
    cases L with
    | nil => exact ⟨_, run_succ_of_step hstep 0, .last (Nat.succ_inj.mp hk) hwf hchar⟩
    | cons y L =>
      rw [List.length_cons] at hk
      have hopen : s.k.toNat < 14 := by omega
      have hbase := fillBase_le s.mode
      have hslot : fillBase s.mode + s.k.toNat < Config.nSlots := by simp only [Config.nSlots]; omega
      rw [storeInLine_eq_withCharacter hopen hchar] at hstep
      obtain ⟨t, hrun, hfills⟩ := ih (s := s.withCharacter x (symbolsOf (y :: L) ++ rest)) hs rfl (Memory.wf_write hwf hslot x)
        (List.cons_ne_nil y L) (by rw [State.withCharacter, List.length_cons]; bv_omega) hrest rfl
      exact ⟨t, (run_succ_of_step hstep _).trans hrun, .cons hopen hwf hfills⟩

/-! ## Outside the read phases -/

theorem State.reads_of_not_inReadPhase {s : State} (h : ¬ s.inReadPhase) : s.reads = false := by
  rw [← Bool.not_eq_true]
  intro hreads
  simp only [State.reads, Bool.and_eq_true, Bool.or_eq_true, beq_iff_eq] at hreads
  exact h hreads.2

theorem State.waits_of_not_inReadPhase {s : State} (h : ¬ s.inReadPhase) : s.waits = false := by
  rw [State.waits, State.reads_of_not_inReadPhase h, Bool.false_and]

/-- A read step on a symbol needs a read phase (log 8). -/
theorem readSymbol_of_not_inReadPhase {s : State} (h : ¬ s.inReadPhase) (x : SymClass) :
    readSymbol x s = .refused .noReadInProgress := by
  rw [readSymbol, if_neg fun hp => h (.inl hp), if_neg fun hp => h (.inr hp)]

/-- The rows of the symbol table are read steps (rules R110 to R115). -/
theorem exec_eq_readSymbol_of_format {i : Instr} (hi : formatOf i = .inputSymbol) : ∃ x, ∀ s, exec i s = readSymbol x s := by
  cases i with
  | symEof | symLf | symCr | symFf | symHigh | symNormal => exact ⟨_, fun _ => rfl⟩
  | _ => cases hi

/-! ## The statements -/

/-- Settles O32: the tick of each mode, with its buffer read slot by slot. -/
theorem scrollTicksMoveTheLines : Obligations.ScrollTicksMoveTheLines := by
  intro s hwf
  refine ⟨exec_phaseTick_left, fun hm => ⟨tickUp s, exec_phaseTick_up hm, ?_, ?_, ?_, rfl⟩,
    fun hm => ⟨tickDown s, exec_phaseTick_down hm, ?_, ?_, ?_, rfl⟩⟩
  · intro i hi
    exact (read_scrolledUp hwf i).trans (if_pos hi)
  · intro i hlo hhi
    exact (read_scrolledUp hwf i).trans ((if_neg (by omega)).trans (if_pos hhi))
  · exact sameFrom_scrolledUp hwf
  · intro i hlo hhi
    exact (read_scrolledDown hwf i).trans ((if_neg (by omega)).trans (if_pos hhi))
  · intro i hi
    exact (read_scrolledDown hwf i).trans (if_pos hi)
  · exact sameFrom_scrolledDown hwf

/-- Settles O33: the read by the class of the symbol, a stored byte by `read_scrolledLeft`. -/
theorem scrollLeftReadActsOnTheSymbol : Obligations.ScrollLeftReadActsOnTheSymbol := by
  intro s x rest hwf hx
  rw [exec_phaseRdL_of_script hx]
  refine ⟨fun heof hexit => ?_, fun heof hstay => ?_, fun hskip => ?_, fun hbyte hlf hcr => ?_⟩
  · rw [classOf_eof heof]
    exact congrArg _ (eofPolicy_of_exit hexit)
  · rw [classOf_eof heof]
    exact congrArg _ (eofPolicy_of_stay hstay)
  · rcases hskip with hlf | hcr
    · rw [classOf_lf hlf]
      rfl
    · rw [classOf_cr hcr]
      rfl
  · rw [readLeft_stored hbyte hlf hcr, ← norm_symbol hbyte]
    have hread := read_scrolledLeft hwf (x.extractLsb' 0 8)
    refine ⟨_, rfl, fun i hi => ?_, hread 44, hread 45, fun i hi => sameFrom_scrolledLeft hwf _ i hi, rfl⟩
    exact (hread i).trans ((if_neg (by omega)).trans (if_pos hi))

/-- Settles O34: the read by the class of the symbol, a stored byte by whether it is the fifteenth of its line. -/
theorem lineFillReadActsOnTheSymbol : Obligations.LineFillReadActsOnTheSymbol := by
  intro s x rest base hwf hx _ hbase
  change base = fillBase s.mode at hbase
  subst hbase
  rw [exec_phaseRdV_of_script hx]
  refine ⟨fun hline => by bv_omega, fun heof hexit => ?_, fun heof hstay => ?_, fun hcr => ?_, fun hlf hfirst hwrap => ?_,
    fun hlf hwrap => ?_, fun hff => ?_, fun hbyte hlf hff hcr => ?_⟩
  · rw [classOf_eof heof]
    exact congrArg _ (eofPolicy_of_exit hexit)
  · rw [classOf_eof heof]
    exact congrArg _ (eofPolicy_of_stay hstay)
  · rw [classOf_cr hcr]
    rfl
  · rw [classOf_lf hlf]
    exact congrArg _ (endLine_of_wrapped ⟨hfirst, hwrap⟩)
  · rw [classOf_lf hlf]
    exact congrArg _ (endLine_of_not_wrapped hwrap)
  · rw [classOf_ff hff]
    refine ⟨_, rfl, fun i hi => ?_, sameFrom_clearScreen hwf, rfl⟩
    exact (Memory.read_fill hwf 0 (fun _ => Config.space) 45 (by decide) i).trans (if_pos (by omega))
  · rw [readLine_stored hbyte hlf hff hcr, ← norm_symbol hbyte]
    refine ⟨_, rfl, ?_, fun i hi => ?_, fun hopen => ?_, fun hlast => ?_⟩
    · rw [storeInLine_tb, Memory.read_write hwf, if_pos rfl]
    · rw [storeInLine_tb, Memory.read_write hwf, if_neg hi]
    · rw [storeInLine_of_open (s := { s with inScript := rest }) hopen]
      rfl
    · rw [storeInLine_of_last (s := { s with inScript := rest }) hlast]
      rfl

/-- Settles O37: fifteen characters are what is missing from an empty line. -/
theorem fifteenCharactersFillALine : Obligations.FifteenCharactersFillALine := by
  intro s L rest base hs hp hk hwf hbase hlen hL hx
  change base = fillBase s.mode at hbase
  have hfirst : fillBase s.mode + s.k.toNat = base := by rw [hk, hbase]; rfl
  have hne : L ≠ [] := List.ne_nil_of_length_pos (by omega)
  obtain ⟨t, hrun, hstored, hkept, hstate⟩ := run_fillsLine hs hp hwf hne (by rw [hk, hlen]; rfl) hL hx
  rw [hlen] at hrun
  rw [hfirst] at hstored hkept
  exact ⟨t, hrun, hstored, fun i hi => hkept i (by rwa [hlen]), hstate⟩

/-- Settles O36: a symbol row is a read step, and outside RD_L and RD_V the block neither reads nor waits. -/
theorem symbolRowsAreRefusedOutsideTheReadPhases : Obligations.SymbolRowsAreRefusedOutsideTheReadPhases := by
  intro s hrdL hrdV
  have hp : ¬ s.inReadPhase := fun h => h.elim hrdL hrdV
  refine ⟨fun i hi => ?_, ?_, fun x => ⟨?_, ?_⟩⟩
  · obtain ⟨x, hexec⟩ := exec_eq_readSymbol_of_format hi
    rw [hexec, readSymbol_of_not_inReadPhase hp]
  · simp [State.offered, State.reads_of_not_inReadPhase hp]
  · simp [State.afterMove, State.permits, State.waits_of_not_inReadPhase hp]
  · simp [State.offer, State.waits_of_not_inReadPhase hp]

end Sys2Proof.Machine
end

section
/-! # The effect modes, exceptions and the reset: the statements of `47_effects.md`, `60_exceptions.md` and `70_reset_and_hazards.md`

The Snow and Fireworks ticks (rules R136 to R139), the modes that read no input (rules R134, R140), the steps, on which VERBOSE has no
effect (rule R153), the time of a line event (rule R162), and the reset state (rules R158 to R160). -/

namespace Sys2Proof.Machine

/-! ## The ticks of the effect modes -/

/-- In MODE SNOW the tick is the Snow tick (rule R102). -/
theorem exec_phaseTick_snow {s : State} (hm : s.inMode .snow) : exec .phaseTick s = .next (tickSnow s) := by
  rw [exec, execPhaseTick, hm, modeOfCode_code]

/-- In MODE FW the tick is the Fireworks tick (rule R102). -/
theorem exec_phaseTick_fw {s : State} (hm : s.inMode .fw) : exec .phaseTick s = .next (tickFw s) := by
  rw [exec, execPhaseTick, hm, modeOfCode_code]

theorem landscapeByte_of_lt (l : Vector Code7 15) {i : Nat} (hi : i < 15) : landscapeByte l i = byteOfCode l[i] := dif_pos hi

section Lines

variable {m : Memory} (h : m.wf = true) (P : Params) (f : Nat → Byte) {i : Nat} (hi : i < 15)
include h hi

/-- The top line falls into the middle line (rule R136). -/
theorem read_snowed_middle : (snowed P f m).read (15 + i) = m.read i := by
  rw [read_snowed h, if_neg (by omega), if_pos (by omega), Nat.add_sub_cancel_left]

theorem read_snowed_bottom : (snowed P f m).read (30 + i) = byteOfCode P.landscapeSnow[i] := by
  rw [read_snowed h, if_neg (by omega), if_neg (by omega), if_pos (by omega), Nat.add_sub_cancel_left, landscapeByte_of_lt]

theorem read_traced_top : (traced P f m).read i = m.read i := by
  rw [read_traced h, if_neg (by omega), if_neg (by omega)]

theorem read_traced_middle : (traced P f m).read (15 + i) = f i := by
  rw [read_traced h, if_pos (by omega), Nat.add_sub_cancel_left]

theorem read_traced_bottom : (traced P f m).read (30 + i) = byteOfCode P.landscapeFw[i] := by
  rw [read_traced h, if_neg (by omega), if_pos (by omega), Nat.add_sub_cancel_left, landscapeByte_of_lt]

/-- Laying the landscape leaves the lines above it alone. -/
theorem read_landscaped_middle (l : Vector Code7 15) :
    (m.fill Config.bottomLine (landscapeByte l) Config.lineLength).read (15 + i) = m.read (15 + i) := by
  rw [read_landscaped h, if_neg (by omega)]

theorem read_landscaped_bottom (l : Vector Code7 15) :
    (m.fill Config.bottomLine (landscapeByte l) Config.lineLength).read (30 + i) = byteOfCode l[i] := by
  rw [read_landscaped h, if_pos (by omega), Nat.add_sub_cancel_left, landscapeByte_of_lt]

theorem read_burstTracers_top :
    (burstTracers P m).read i =
      if m.read (15 + i) = byteOfCode P.tracerChar then byteOfCode P.burstChar else Config.space := by
  rw [read_burstTracers h, if_pos hi]

theorem read_burstTracers_middle : (burstTracers P m).read (15 + i) = Config.space := by
  rw [read_burstTracers h, if_neg (by omega), if_pos (by omega)]

theorem read_burstTracers_bottom : (burstTracers P m).read (30 + i) = m.read (30 + i) := by
  rw [read_burstTracers h, if_neg (by omega), if_neg (by omega)]

end Lines

/-- The Fireworks tick in the source's phase 1 (rule R138). -/
theorem tickFw_of_tracers {s : State} (h : s.fwPhase = false) :
    tickFw s =
      { s with
        tb := traced s.params (byDraw s 16 (byteOfCode s.params.tracerChar)) s.tb, fwPhase := true, p := 0,
        phase := Phase.rowA.code, drawScript := s.drawScript.drop 15, drawCtr := s.drawCtr + 15 } := by
  rw [tickFw_eq, if_pos h]

/-- The Fireworks tick in the source's phase 2 (rule R138). -/
theorem tickFw_of_bursts {s : State} (h : s.fwPhase = true) :
    tickFw s =
      { s with
        tb := burstTracers s.params (s.tb.fill Config.bottomLine (landscapeByte s.params.landscapeFw) Config.lineLength),
        fwPhase := false, p := 0, phase := Phase.rowA.code } := by
  rw [tickFw_eq, if_neg (by simp [h])]

/-- Both Fireworks phases leave the landscape in the bottom line (rule R138). -/
theorem tickFw_bottom {s : State} (hwf : s.tb.wf = true) {i : Nat} (hi : i < 15) :
    (tickFw s).tb.read (30 + i) = byteOfCode s.params.landscapeFw[i] := by
  cases h : s.fwPhase with
  | false =>
    rw [tickFw_of_tracers h]
    exact read_traced_bottom hwf _ _ hi
  | true =>
    rw [tickFw_of_bursts h]
    exact (read_burstTracers_bottom (wf_landscaped hwf _) _ hi).trans (read_landscaped_bottom hwf hi _)

/-! ## The modes without input -/

/-- Outside the scroll modes the block neither reads nor halts, and is not frozen (rules R116, R117, R134, R140). -/
theorem State.Inv.without_input {s : State} (h : s.Inv) (hm : ¬ s.inScrollMode) :
    ¬ s.inReadPhase ∧ ¬ s.inPhase .halt ∧ s.frozen = false :=
  ⟨fun hp => hm (hp.imp h.sequencer.readLeft h.sequencer.readLine), fun hp => hm (h.sequencer.haltScrolls hp).1,
    Bool.eq_false_iff.mpr fun hf => hm (h.sequencer.frozenScrolls hf).1⟩

/-- Only a read phase consumes a symbol (rules R42, R134). -/
theorem StepWrites.inScript_of_not_inReadPhase {s t : State} (h : StepWrites s t) (hp : ¬ s.inReadPhase) :
    t.inScript = s.inScript := by
  cases h with
  | scan | post | tickDate | tickSnow | tickFw | tickLeft | tickLine | wait => rfl
  | readLeft h => exact absurd (.inl h) hp
  | readLine h => exact absurd (.inr h) hp
  | halt h | freeze h => exact absurd h hp

theorem not_inScrollMode_of_mode {s : State} (hm : s.mode = 0 ∨ s.mode = 1 ∨ s.mode = 2 ∨ s.mode = 3) : ¬ s.inScrollMode := by
  unfold State.inScrollMode State.inMode
  rcases hm with hm | hm | hm | hm <;> rw [hm] <;> decide

/-- Outside the scroll modes the block steps forever, in its mode and with the same symbols at the port (rules R134, R140). -/
theorem run_without_input {s : State} (h : s.Inv) (hm : ¬ s.inScrollMode) (n : Nat) :
    ∃ t : State, Host.Core.run Sys2Proof.core n s = .next t ∧ t.Inv ∧ t.mode = s.mode ∧ t.inScript = s.inScript := by
  refine run_of_progress (P := fun t => t.Inv ∧ t.mode = s.mode ∧ t.inScript = s.inScript)
    (fun t ⟨hinv, hmode, hscript⟩ => ?_) n ⟨h, rfl, rfl⟩
  obtain ⟨hread, hhalt, -⟩ := hinv.without_input (by rwa [State.inScrollMode, State.inMode, State.inMode, State.inMode, hmode])
  obtain ⟨u, hstep⟩ := hinv.exists_step hhalt
  have hwrites := (step_cases hinv.started hstep).writes
  obtain ⟨-, hmode', -⟩ := hwrites.config
  exact ⟨u, hstep, stepKeepsTheRunInvariant t u hinv hstep, hmode'.trans hmode,
    (hwrites.inScript_of_not_inReadPhase hread).trans hscript⟩

/-! ## VERBOSE -/

/-- The state with VERBOSE, CFG[7], inverted (rule R58). -/
def State.flipVerbose (s : State) : State := { s with cfg := s.cfg ^^^ 0x80 }

section Verbose

variable (s : State)

@[simp] theorem flipVerbose_mode : s.flipVerbose.mode = s.mode := rfl
@[simp] theorem flipVerbose_p : s.flipVerbose.p = s.p := rfl
@[simp] theorem flipVerbose_c : s.flipVerbose.c = s.c := rfl
@[simp] theorem flipVerbose_params : s.flipVerbose.params = s.params := rfl
@[simp] theorem flipVerbose_inScript : s.flipVerbose.inScript = s.inScript := rfl
@[simp] theorem flipVerbose_readSlot (i : Nat) : s.flipVerbose.readSlot i = s.readSlot i := rfl

theorem cfgExitOnEof_xor_verbose (w : BitVec 8) : cfgExitOnEof (w ^^^ 0x80) = cfgExitOnEof w := by simp [cfgExitOnEof]

theorem advanceBit_flipVerbose : advanceBit s.flipVerbose = (advanceBit s).flipVerbose := by
  rw [advanceBit, advanceBit, apply_ite State.flipVerbose, apply_ite State.flipVerbose]
  rfl

theorem advanceRow_flipVerbose : advanceRow s.flipVerbose = (advanceRow s).flipVerbose := by
  rw [advanceRow, advanceRow, apply_ite State.flipVerbose]
  rfl

theorem countRefresh_flipVerbose : countRefresh s.flipVerbose = (countRefresh s).flipVerbose := by
  dsimp only [countRefresh]
  rw [apply_ite State.flipVerbose, apply_ite State.flipVerbose]
  rfl

theorem tickSnow_flipVerbose : tickSnow s.flipVerbose = (tickSnow s).flipVerbose := by
  rw [tickSnow_eq, tickSnow_eq]
  rfl

theorem tickFw_flipVerbose : tickFw s.flipVerbose = (tickFw s).flipVerbose := by
  rw [tickFw_eq, tickFw_eq, apply_ite State.flipVerbose]
  rfl

/-- EOF_POLICY, the one operation that looks at CFG, looks at EXIT_ON_EOF (rule R117). -/
theorem eofPolicy_flipVerbose : eofPolicy s.flipVerbose = (eofPolicy s).flipVerbose := by
  rw [eofPolicy, eofPolicy, apply_ite State.flipVerbose, State.flipVerbose, cfgExitOnEof_xor_verbose]
  rfl

theorem endLine_flipVerbose : endLine s.flipVerbose = (endLine s).flipVerbose := by
  rw [endLine, endLine, apply_ite State.flipVerbose]
  rfl

theorem storeInLine_flipVerbose (x : Byte) : storeInLine x s.flipVerbose = (storeInLine x s).flipVerbose := by
  dsimp only [storeInLine]
  rw [apply_ite State.flipVerbose]
  rfl

theorem readLeft_flipVerbose (x : SymClass) : readLeft x s.flipVerbose = (readLeft x s).flipVerbose := by
  cases x with
  | eof => exact eofPolicy_flipVerbose s
  | lf | cr | ff | high | normal => rfl

theorem readLine_flipVerbose (x : SymClass) : readLine x s.flipVerbose = (readLine x s).flipVerbose := by
  cases x with
  | eof => exact eofPolicy_flipVerbose s
  | lf => exact endLine_flipVerbose s
  | high byte | normal byte => exact storeInLine_flipVerbose s byte
  | cr | ff => rfl

theorem exec_phaseData_flipVerbose :
    exec .phaseData s.flipVerbose = mapNext State.flipVerbose (exec .phaseData s) := by
  simp only [exec, execPhaseData, flipVerbose_readSlot, flipVerbose_c, flipVerbose_params, flipVerbose_p]
  cases s.readSlot s.c.toNat with
  | none => rfl
  | some code =>
    dsimp only
    cases glyphRow s.params code (glyphRowOfPass s.p) <;> rfl

theorem exec_phaseTick_flipVerbose :
    exec .phaseTick s.flipVerbose = mapNext State.flipVerbose (exec .phaseTick s) := by
  simp only [exec, execPhaseTick, flipVerbose_mode]
  cases modeOfCode s.mode with
  | none => rfl
  | some m =>
    cases m with
    | snow => exact congrArg _ (tickSnow_flipVerbose s)
    | fw => exact congrArg _ (tickFw_flipVerbose s)
    | static | date | left | up | down => rfl

theorem exec_phaseRdL_flipVerbose :
    exec .phaseRdL s.flipVerbose = mapNext State.flipVerbose (exec .phaseRdL s) := by
  simp only [exec, execPhaseRdL, flipVerbose_inScript]
  cases s.inScript with
  | nil => rfl
  | cons x rest => exact congrArg _ (readLeft_flipVerbose (consumeSymbol s) (classOf x))

theorem exec_phaseRdV_flipVerbose :
    exec .phaseRdV s.flipVerbose = mapNext State.flipVerbose (exec .phaseRdV s) := by
  simp only [exec, execPhaseRdV, flipVerbose_inScript]
  cases s.inScript with
  | nil => rfl
  | cons x rest => exact congrArg _ (readLine_flipVerbose (consumeSymbol s) (classOf x))

/-- Every micro-operation commutes with a change of VERBOSE, its stops included. -/
theorem exec_phaseRow_flipVerbose (P : Phase) :
    exec (phaseRow P) s.flipVerbose = mapNext State.flipVerbose (exec (phaseRow P) s) := by
  cases P with
  | rowA | rowB | rowC | clkH | stbH | halt => rfl
  | data => exact exec_phaseData_flipVerbose s
  | clkL => exact congrArg _ (advanceBit_flipVerbose (setLine .sclk false s))
  | stbL => exact congrArg _ (advanceRow_flipVerbose (setLine .stb false s))
  | post => exact congrArg _ (countRefresh_flipVerbose s)
  | tick => exact exec_phaseTick_flipVerbose s
  | rdL => exact exec_phaseRdL_flipVerbose s
  | rdV => exact exec_phaseRdV_flipVerbose s

end Verbose

/-! ## Time -/

theorem leastTime_of_emits {e : LineEvent} {s t : State} (h : State.Emits e s t) (hparams : t.params = s.params) :
    leastTime t = leastTime s + tSettle s.params := by
  simp only [leastTime, h.trace, hparams, List.length_cons, Nat.succ_mul]

theorem leastTime_of_silent {s t : State} (h : State.Silent s t) (hparams : t.params = s.params) :
    leastTime t = leastTime s := by
  simp only [leastTime, h.trace, hparams]

/-! ## The reset state -/

/-- On the defaults of the configuration registers the start sequence starts ScrollLeft (rules R29, R61, R159). -/
theorem step_beforeStart (P : Params) :
    step (State.beforeStart P) = .next (start 0x00 .left (State.beforeStart P)) := by
  have hrow : decodeCfg 0x00 = .modeLeft false false := rfl
  have hcfg : (State.beforeStart P).cfg = 0x00 := rfl
  rw [step_before_start rfl, hcfg, hrow]
  rfl

/-! ## The statements -/

/-- Settles O59: outside the scroll modes the run goes on, and each of its states meets the run invariant in the same mode. -/
theorem modesWithoutInputNeverReadOrHalt : Obligations.ModesWithoutInputNeverReadOrHalt := by
  intro s n h hm
  obtain ⟨t, hrun, hinv, hmode, hscript⟩ := run_without_input h (not_inScrollMode_of_mode hm) n
  obtain ⟨hread, hhalt, hfrozen⟩ := hinv.without_input (not_inScrollMode_of_mode (by rwa [hmode]))
  exact ⟨t, hrun, hscript, hfrozen, hmode, fun hp => hread (.inl hp), fun hp => hread (.inr hp), hhalt⟩

/-- Settles O30: the tick is `tickSnow`, and its buffer is read line by line. -/
theorem snowTickLetsTheTopLineFall : Obligations.SnowTickLetsTheTopLineFall := by
  intro s hwf hm
  refine ⟨tickSnow s, exec_phaseTick_snow hm, ?_⟩
  rw [tickSnow_eq]
  exact ⟨fun i hi => (read_snowed hwf _ _ i).trans (if_pos hi), fun i hi => read_snowed_middle hwf _ _ hi,
    fun i hi => read_snowed_bottom hwf _ _ hi, sameFrom_snowed hwf _ _, rfl⟩

/-- Settles O31: the tick is `tickFw`, and the buffer of each of its phases is read line by line. -/
theorem fireworksTickAlternatesTracersAndBursts : Obligations.FireworksTickAlternatesTracersAndBursts := by
  intro s hwf hm
  refine ⟨tickFw s, exec_phaseTick_fw hm, fun i hi => tickFw_bottom hwf hi, tickFw_sameFrom hwf, fun h => ?_, fun h => ?_⟩
  · rw [tickFw_of_tracers h]
    exact ⟨fun i hi => read_traced_top hwf _ _ hi, fun i hi => read_traced_middle hwf _ _ hi, rfl⟩
  · have hland := wf_landscaped hwf s.params.landscapeFw
    rw [tickFw_of_bursts h]
    refine ⟨fun i hi => ?_, fun i hi => read_burstTracers_middle hland _ hi, rfl⟩
    exact (read_burstTracers_top hland _ hi).trans (by rw [read_landscaped_middle hwf hi])

/-- Settles O46: both steps run the row of the phase, which commutes with the change, or both are stuck. -/
theorem verboseHasNoEffect : Obligations.VerboseHasNoEffect := by
  intro s hs
  change step s.flipVerbose = mapNext State.flipVerbose (step s)
  by_cases hp : s.phase.toNat ≤ 12
  · obtain ⟨P, hP⟩ := exists_phase_code hp
    have hrow : decodePhase s.phase = .ok (phaseRow P) := by rw [← hP, decodePhase_code]
    rw [step_of_phase hs hrow, step_of_phase (s := s.flipVerbose) hs hrow, exec_phaseRow_flipVerbose]
  · rw [unusedPhaseCodesAreStuck s hs (Nat.lt_of_not_le hp),
      unusedPhaseCodesAreStuck s.flipVerbose hs (Nat.lt_of_not_le hp)]
    rfl

/-- Settles O52: HALT is refused, and every other state of the invariant has a step. -/
theorem invariantStatesStepUnlessHalted : Obligations.InvariantStatesStepUnlessHalted := by
  intro s h
  split
  · next hp => exact (haltHasNoStep s).2 h.started hp
  · next hp => exact h.exists_step hp

/-- Settles O12: the least time counts the events of the trace, and the outputs of a step are those of `StepCase.outputs`. -/
theorem eachLineEventCostsTheSettlingTime : Obligations.EachLineEventCostsTheSettlingTime := by
  intro s t hs hstep
  have hcase := step_cases hs hstep
  obtain ⟨-, -, -, -, -, hparams, -⟩ := hcase.writes.config
  rcases hcase.outputs with ⟨hp, e, hemits⟩ | ⟨hp, hsilent⟩
  · have htime := leastTime_of_emits hemits hparams
    have hpositive : 0 < tSettle s.params := Nat.succ_pos _
    exact ⟨fun _ => ⟨htime, by omega⟩, fun hp' => absurd hp (Nat.not_le.mpr hp')⟩
  · exact ⟨fun hp' => absurd hp (Nat.not_lt.mpr hp'), fun _ => leastTime_of_silent hsilent hparams⟩

/-- Settles O40: the fields of `State.reset`, and the row of its CFG word. -/
theorem resetHoldsTheSpecValues : Obligations.ResetHoldsTheSpecValues :=
  ⟨rfl, rfl, rfl, rfl, rfl, rfl, fun _ => rfl, rfl, rfl, rfl, rfl, rfl, rfl, rfl, rfl, rfl, rfl, rfl⟩

/-- Settles O41: the first step is the start of ScrollLeft, and that is the reset state. -/
theorem resetIsTheStartOnTheDefaults : Obligations.ResetIsTheStartOnTheDefaults :=
  ⟨step_beforeStart Config.params, start_startsRun 0x00 .left (State.beforeStart Config.params)⟩

/-- Settles O42: a fresh run is in ROW_A of pass 0 with no event yet. -/
theorem firstStepIsRowSelectAOfPassZero : Obligations.FirstStepIsRowSelectAOfPassZero := by
  intro s t u w mode hstart hstep
  rw [hstart.fields, step_of_phase (i := .phaseRowA) rfl rfl] at hstep
  cases hstep
  exact ⟨by simp [rowSelectBit], rfl, rfl⟩

/-- Settles O49: the reset state is a start, and every start meets each of the four. -/
theorem resetMeetsTheInvariants : Obligations.ResetMeetsTheInvariants :=
  everyStartMeetsTheInvariants (State.beforeStart Config.params) State.reset rfl (step_beforeStart Config.params)

/-- Settles O6: each word is read by the tables. -/
theorem wordsOfTheTablesDecode : Obligations.WordsOfTheTablesDecode :=
  ⟨rfl, rfl, rfl, rfl, rfl, rfl, rfl, rfl, rfl⟩

end Sys2Proof.Machine
end
